-- ==== Sys2Proof/Word.lean ====
section
/-! DEFINITION. The word and byte types of PQR-SCB (10_state.md R21, R37). -/

namespace Sys2Proof

/-- A command word or the Host's view of a register: 32 bits (R21, R56). -/
abbrev Word := BitVec 32

/-- A codeword, a buffer byte or the Host's view of a frame cell: 8 bits (R37, R40). -/
abbrev Byte := BitVec 8

end Sys2Proof
end

