-- ==== Sys2Proof/Syntax.lean ====
section
/-! DEFINITION. The sixteen commands of PQR-SCB (30_encoding.md R57, R58, R62). -/

namespace Sys2Proof

/-- One constructor per row of the opcode table (R62). An operand is the unsigned field of the command
word, as wide as its format gives it (R57, R58), so every term is a command that some word encodes. -/
inductive Instr where
  /-- NOP (R68). -/
  | nop
  /-- SOFT_RESET (R69). -/
  | softReset
  /-- SEL_CLEAR (R88). -/
  | selClear
  /-- SEL_ADD MODE, COUNT (R89). -/
  | selAdd (mode : BitVec 3) (count : BitVec 16)
  /-- SEL_RUN VERSION, LEVEL (R90). -/
  | selRun (version : BitVec 6) (level : BitVec 2)
  /-- SPEC_QUERY VERSION, LEVEL (R82). -/
  | specQuery (version : BitVec 6) (level : BitVec 2)
  /-- GEN_POLY N (R102). -/
  | genPoly (n : Byte)
  /-- RS_ENCODE K, N (R103). -/
  | rsEncode (k n : Byte)
  /-- ASSEMBLE (R108). -/
  | assemble
  /-- CW_RESET (R109). -/
  | cwReset
  /-- CW_NEXT (R110). -/
  | cwNext
  /-- FRAME_INIT (R117). -/
  | frameInit
  /-- FILL_RESET (R118). -/
  | fillReset
  /-- FILL_NEXT (R119). -/
  | fillNext
  /-- FRAME_FILL (R120). -/
  | frameFill
  /-- MASK m (R124). -/
  | mask (m : BitVec 3)
  deriving DecidableEq, Repr

/-- The opcode names of R62, one per value of bits 31:24 that is assigned. -/
inductive Opcode where
  | nop | softReset | selClear | selAdd | selRun | specQuery | genPoly | rsEncode
  | assemble | cwReset | cwNext | frameInit | fillReset | fillNext | frameFill | mask
  deriving DecidableEq, Repr

/-- The six formats of R57. -/
inductive Format where
  | N | S | V | K | G | M
  deriving DecidableEq, Repr

/-- Why a word is no command; the Engine ends both with IllegalCommand (R63, R64). -/
inductive DecodeError where
  /-- Bits 31:24 are none of the sixteen assigned opcodes. -/
  | unassignedOpcode
  /-- The opcode is assigned and a reserved bit of its format is 1. -/
  | reservedBitSet
  deriving DecidableEq, Repr

end Sys2Proof
end

