-- ==== Sys2Proof/Decode.lean ====
section
/-! DEFINITION. Decoding a command word (30_encoding.md R63) and encoding a command (R57, R66). -/

namespace Sys2Proof

/-- The opcodes in the order of R62. -/
def Opcode.all : List Opcode :=
  [.nop, .softReset, .selClear, .selAdd, .selRun, .specQuery, .genPoly, .rsEncode,
   .assemble, .cwReset, .cwNext, .frameInit, .fillReset, .fillNext, .frameFill, .mask]

/-- Bits 31:24 of the opcode (R62). -/
def Opcode.code : Opcode → BitVec 8
  | .nop => 0x00#8
  | .softReset => 0x01#8
  | .selClear => 0x10#8
  | .selAdd => 0x11#8
  | .selRun => 0x12#8
  | .specQuery => 0x13#8
  | .genPoly => 0x20#8
  | .rsEncode => 0x21#8
  | .assemble => 0x30#8
  | .cwReset => 0x31#8
  | .cwNext => 0x32#8
  | .frameInit => 0x40#8
  | .fillReset => 0x41#8
  | .fillNext => 0x42#8
  | .frameFill => 0x43#8
  | .mask => 0x50#8

/-- The format of the opcode (R57, R62). -/
def Opcode.format : Opcode → Format
  | .selAdd => .S
  | .selRun | .specQuery => .V
  | .rsEncode => .K
  | .genPoly => .G
  | .mask => .M
  | .nop | .softReset | .selClear | .assemble | .cwReset | .cwNext | .frameInit
  | .fillReset | .fillNext | .frameFill => .N

/-- The bits of a format that must be 0 (R63, ReservedMask). -/
def Format.reservedMask : Format → Word
  | .N => 0x00FFFFFF#32
  | .S => 0x00F80000#32
  | .V => 0x00FFC0FC#32
  | .K => 0x00FF0000#32
  | .G => 0x00FFFF00#32
  | .M => 0x00FFFFF8#32

/-- OP = w[31:24] (R56). -/
def opField (w : Word) : BitVec 8 := w.extractLsb' 24 8

/-- The opcode with this code, if it is assigned (R62). -/
def Opcode.ofCode (b : BitVec 8) : Option Opcode :=
  Opcode.all.find? fun op => op.code == b

/-- MODE = word[18:16] (R58). -/
def modeField (w : Word) : BitVec 3 := w.extractLsb' 16 3
/-- COUNT = word[15:0] (R58). -/
def countField (w : Word) : BitVec 16 := w.extractLsb' 0 16
/-- VERSION = word[13:8] (R58). -/
def versionField (w : Word) : BitVec 6 := w.extractLsb' 8 6
/-- LEVEL = word[1:0] (R58). -/
def levelField (w : Word) : BitVec 2 := w.extractLsb' 0 2
/-- K = word[15:8] (R58). -/
def kField (w : Word) : Byte := w.extractLsb' 8 8
/-- N = word[7:0] (R58). -/
def nField (w : Word) : Byte := w.extractLsb' 0 8
/-- MASK = word[2:0] (R58). -/
def maskField (w : Word) : BitVec 3 := w.extractLsb' 0 3

/-- The command of an opcode with the operand fields of a word (R58, R63 "fields(w)"). -/
def Opcode.instr (op : Opcode) (w : Word) : Instr :=
  match op with
  | .nop => .nop
  | .softReset => .softReset
  | .selClear => .selClear
  | .selAdd => .selAdd (modeField w) (countField w)
  | .selRun => .selRun (versionField w) (levelField w)
  | .specQuery => .specQuery (versionField w) (levelField w)
  | .genPoly => .genPoly (nField w)
  | .rsEncode => .rsEncode (kField w) (nField w)
  | .assemble => .assemble
  | .cwReset => .cwReset
  | .cwNext => .cwNext
  | .frameInit => .frameInit
  | .fillReset => .fillReset
  | .fillNext => .fillNext
  | .frameFill => .frameFill
  | .mask => .mask (maskField w)

/-- R63: the opcode is looked up first, then the reserved bits of its format are checked, then the
operand fields are taken. -/
def decode (w : Word) : Except DecodeError Instr :=
  match Opcode.ofCode (opField w) with
  | none => .error .unassignedOpcode
  | some op =>
    if w &&& op.format.reservedMask = 0#32 then .ok (op.instr w) else .error .reservedBitSet

/-- The opcode of a command (R62). -/
def Instr.opcode : Instr → Opcode
  | .nop => .nop
  | .softReset => .softReset
  | .selClear => .selClear
  | .selAdd _ _ => .selAdd
  | .selRun _ _ => .selRun
  | .specQuery _ _ => .specQuery
  | .genPoly _ => .genPoly
  | .rsEncode _ _ => .rsEncode
  | .assemble => .assemble
  | .cwReset => .cwReset
  | .cwNext => .cwNext
  | .frameInit => .frameInit
  | .fillReset => .fillReset
  | .fillNext => .fillNext
  | .frameFill => .frameFill
  | .mask _ => .mask

/-- Bits 23:0 of a command, most significant part first (R57, R66). -/
def Instr.operandBits : Instr → BitVec 24
  | .selAdd mode count => 0#5 ++ mode ++ count
  | .selRun version level => 0#10 ++ version ++ 0#6 ++ level
  | .specQuery version level => 0#10 ++ version ++ 0#6 ++ level
  | .genPoly n => 0#16 ++ n
  | .rsEncode k n => 0#8 ++ k ++ n
  | .mask m => 0#21 ++ m
  | .nop | .softReset | .selClear | .assemble | .cwReset | .cwNext | .frameInit
  | .fillReset | .fillNext | .frameFill => 0#24

/-- The word of a command: the opcode in bits 31:24 and its format's fields below (R56, R66). -/
def encode (i : Instr) : Word := i.opcode.code ++ i.operandBits

/-- A word given as a number of nbits bits, the bits above being 0. -/
def tableWord (nbits w : Nat) : Word := BitVec.ofNat 32 (w % 2 ^ nbits)

/-- The command the decoder reads from the word with bits w. A command is one 32-bit word (R56), written
whole to CMD, so the table's numbering of bits is the word's own (R11, R47). -/
def decodeTableWord (nbits w : Nat) : Option Instr :=
  match decode (tableWord nbits w) with
  | .ok i => some i
  | .error _ => none

end Sys2Proof
end

