-- ==== Sys2Proof/Config.lean ====
section
/-! DEFINITION. What the spec fixes once for the block (00_scope.md R8), the two parameters it leaves
open (R9, R10), and the free values a model may not constrain (R38, R143). -/

namespace Sys2Proof.Config

/-- Versions run from 1 to 40 (R8). -/
def maxVersion : Nat := 40

/-- Rows and columns of the frame store (R8, R39). -/
def maxWidth : Nat := 177

/-- Entries of SEG_TABLE (R8, R36; decision D15). -/
def maxSegments : Nat := 256

/-- Bits of a mode indicator in the sizing sum (R8, R84). -/
def modeIndicatorBits : Nat := 4

/-- Bits of the terminator in the sizing sum (R8, R84). -/
def terminatorBits : Nat := 4

/-- The field-generator polynomial x^8+x^4+x^3+x^2+1 (R8, R91). -/
def fieldPoly : Nat := 0x11D

/-- The code length limit NN = 2^8 - 1 (R8). -/
def codeLength : Nat := 255

/-- The parameters a build of the block chooses (R8: `param`; R9, R10; D11, D12).
They are held in State, so a claim about every state is a claim about every legal choice of them
(log entry 9). A length-indicator list gives the width at version v in place v - 1. -/
structure Params where
  /-- `KanjiBitsPerChar`: payload bits of one Kanji character (R9). -/
  kanjiBits : Nat
  /-- `LengthIndicatorTable`, Numeric, versions 1..40 (R10, R75). -/
  liNumeric : List Nat
  /-- `LengthIndicatorTable`, Alphanumeric, versions 1..40. -/
  liAlphanumeric : List Nat
  /-- `LengthIndicatorTable`, Byte, versions 1..40. -/
  liByte : List Nat
  /-- `LengthIndicatorTable`, Kanji, versions 1..40. -/
  liKanji : List Nat
  deriving DecidableEq, Repr

/-- FREE VALUE. What the k-th Host read of a byte that nothing has written returns (R38: "a model
gives it a free draw"; log entry 2). -/
opaque freeByte : Nat → Byte

/-- FREE VALUE. How many Host reads the port serves between the k-th write to CMD and the completion
of that command, if the Host makes so many (R143: "a free, finite draw (possibly zero)"; log entry 3). -/
opaque latency : Nat → Nat

end Sys2Proof.Config
end

