-- ==== Sys2Proof/Machine/Capacity.lean ====
section
/-! DEFINITION. The constant tables of 41_capacity_tables.md: width, capacity and error-correction
blocks, remainder bits, length indicators, alignment centres, format and version information. -/

namespace Sys2Proof.Machine

open Sys2Proof

/-- Width(v) = 17 + 4·v (R70). -/
def symbolWidth (v : Nat) : Nat := 17 + 4 * v

/-- One row of R71, its columns in the table's order. -/
structure CapacityRow where
  /-- T: total codewords. -/
  total : Nat
  /-- D: data codewords. -/
  data : Nat
  /-- E: ecc codewords. -/
  ecc : Nat
  /-- G1: group-1 blocks. -/
  g1 : Nat
  /-- D1: data codewords of a group-1 block. -/
  d1 : Nat
  /-- G2: group-2 blocks. -/
  g2 : Nat
  /-- D2: data codewords of a group-2 block, 0 when G2 = 0. -/
  d2 : Nat
  /-- e: ecc codewords of a block. -/
  eccPerBlock : Nat
  deriving DecidableEq, Repr

/-- R71, versions 1 to 10. -/
def capacityRows0 : List (List CapacityRow) := [
  [⟨26, 19, 7, 1, 19, 0, 0, 7⟩, ⟨26, 16, 10, 1, 16, 0, 0, 10⟩, ⟨26, 13, 13, 1, 13, 0, 0, 13⟩, ⟨26, 9, 17, 1, 9, 0, 0, 17⟩],
  [⟨44, 34, 10, 1, 34, 0, 0, 10⟩, ⟨44, 28, 16, 1, 28, 0, 0, 16⟩, ⟨44, 22, 22, 1, 22, 0, 0, 22⟩, ⟨44, 16, 28, 1, 16, 0, 0, 28⟩],
  [⟨70, 55, 15, 1, 55, 0, 0, 15⟩, ⟨70, 44, 26, 1, 44, 0, 0, 26⟩, ⟨70, 34, 36, 2, 17, 0, 0, 18⟩, ⟨70, 26, 44, 2, 13, 0, 0, 22⟩],
  [⟨100, 80, 20, 1, 80, 0, 0, 20⟩, ⟨100, 64, 36, 2, 32, 0, 0, 18⟩, ⟨100, 48, 52, 2, 24, 0, 0, 26⟩, ⟨100, 36, 64, 4, 9, 0, 0, 16⟩],
  [⟨134, 108, 26, 1, 108, 0, 0, 26⟩, ⟨134, 86, 48, 2, 43, 0, 0, 24⟩, ⟨134, 62, 72, 2, 15, 2, 16, 18⟩, ⟨134, 46, 88, 2, 11, 2, 12, 22⟩],
  [⟨172, 136, 36, 2, 68, 0, 0, 18⟩, ⟨172, 108, 64, 4, 27, 0, 0, 16⟩, ⟨172, 76, 96, 4, 19, 0, 0, 24⟩, ⟨172, 60, 112, 4, 15, 0, 0, 28⟩],
  [⟨196, 156, 40, 2, 78, 0, 0, 20⟩, ⟨196, 124, 72, 4, 31, 0, 0, 18⟩, ⟨196, 88, 108, 2, 14, 4, 15, 18⟩, ⟨196, 66, 130, 4, 13, 1, 14, 26⟩],
  [⟨242, 194, 48, 2, 97, 0, 0, 24⟩, ⟨242, 154, 88, 2, 38, 2, 39, 22⟩, ⟨242, 110, 132, 4, 18, 2, 19, 22⟩, ⟨242, 86, 156, 4, 14, 2, 15, 26⟩],
  [⟨292, 232, 60, 2, 116, 0, 0, 30⟩, ⟨292, 182, 110, 3, 36, 2, 37, 22⟩, ⟨292, 132, 160, 4, 16, 4, 17, 20⟩, ⟨292, 100, 192, 4, 12, 4, 13, 24⟩],
  [⟨346, 274, 72, 2, 68, 2, 69, 18⟩, ⟨346, 216, 130, 4, 43, 1, 44, 26⟩, ⟨346, 154, 192, 6, 19, 2, 20, 24⟩, ⟨346, 122, 224, 6, 15, 2, 16, 28⟩]]

/-- R71, versions 11 to 20. -/
def capacityRows1 : List (List CapacityRow) := [
  [⟨404, 324, 80, 4, 81, 0, 0, 20⟩, ⟨404, 254, 150, 1, 50, 4, 51, 30⟩, ⟨404, 180, 224, 4, 22, 4, 23, 28⟩, ⟨404, 140, 264, 3, 12, 8, 13, 24⟩],
  [⟨466, 370, 96, 2, 92, 2, 93, 24⟩, ⟨466, 290, 176, 6, 36, 2, 37, 22⟩, ⟨466, 206, 260, 4, 20, 6, 21, 26⟩, ⟨466, 158, 308, 7, 14, 4, 15, 28⟩],
  [⟨532, 428, 104, 4, 107, 0, 0, 26⟩, ⟨532, 334, 198, 8, 37, 1, 38, 22⟩, ⟨532, 244, 288, 8, 20, 4, 21, 24⟩, ⟨532, 180, 352, 12, 11, 4, 12, 22⟩],
  [⟨581, 461, 120, 3, 115, 1, 116, 30⟩, ⟨581, 365, 216, 4, 40, 5, 41, 24⟩, ⟨581, 261, 320, 11, 16, 5, 17, 20⟩, ⟨581, 197, 384, 11, 12, 5, 13, 24⟩],
  [⟨655, 523, 132, 5, 87, 1, 88, 22⟩, ⟨655, 415, 240, 5, 41, 5, 42, 24⟩, ⟨655, 295, 360, 5, 24, 7, 25, 30⟩, ⟨655, 223, 432, 11, 12, 7, 13, 24⟩],
  [⟨733, 589, 144, 5, 98, 1, 99, 24⟩, ⟨733, 453, 280, 7, 45, 3, 46, 28⟩, ⟨733, 325, 408, 15, 19, 2, 20, 24⟩, ⟨733, 253, 480, 3, 15, 13, 16, 30⟩],
  [⟨815, 647, 168, 1, 107, 5, 108, 28⟩, ⟨815, 507, 308, 10, 46, 1, 47, 28⟩, ⟨815, 367, 448, 1, 22, 15, 23, 28⟩, ⟨815, 283, 532, 2, 14, 17, 15, 28⟩],
  [⟨901, 721, 180, 5, 120, 1, 121, 30⟩, ⟨901, 563, 338, 9, 43, 4, 44, 26⟩, ⟨901, 397, 504, 17, 22, 1, 23, 28⟩, ⟨901, 313, 588, 2, 14, 19, 15, 28⟩],
  [⟨991, 795, 196, 3, 113, 4, 114, 28⟩, ⟨991, 627, 364, 3, 44, 11, 45, 26⟩, ⟨991, 445, 546, 17, 21, 4, 22, 26⟩, ⟨991, 341, 650, 9, 13, 16, 14, 26⟩],
  [⟨1085, 861, 224, 3, 107, 5, 108, 28⟩, ⟨1085, 669, 416, 3, 41, 13, 42, 26⟩, ⟨1085, 485, 600, 15, 24, 5, 25, 30⟩, ⟨1085, 385, 700, 15, 15, 10, 16, 28⟩]]

/-- R71, versions 21 to 30. -/
def capacityRows2 : List (List CapacityRow) := [
  [⟨1156, 932, 224, 4, 116, 4, 117, 28⟩, ⟨1156, 714, 442, 17, 42, 0, 0, 26⟩, ⟨1156, 512, 644, 17, 22, 6, 23, 28⟩, ⟨1156, 406, 750, 19, 16, 6, 17, 30⟩],
  [⟨1258, 1006, 252, 2, 111, 7, 112, 28⟩, ⟨1258, 782, 476, 17, 46, 0, 0, 28⟩, ⟨1258, 568, 690, 7, 24, 16, 25, 30⟩, ⟨1258, 442, 816, 34, 13, 0, 0, 24⟩],
  [⟨1364, 1094, 270, 4, 121, 5, 122, 30⟩, ⟨1364, 860, 504, 4, 47, 14, 48, 28⟩, ⟨1364, 614, 750, 11, 24, 14, 25, 30⟩, ⟨1364, 464, 900, 16, 15, 14, 16, 30⟩],
  [⟨1474, 1174, 300, 6, 117, 4, 118, 30⟩, ⟨1474, 914, 560, 6, 45, 14, 46, 28⟩, ⟨1474, 664, 810, 11, 24, 16, 25, 30⟩, ⟨1474, 514, 960, 30, 16, 2, 17, 30⟩],
  [⟨1588, 1276, 312, 8, 106, 4, 107, 26⟩, ⟨1588, 1000, 588, 8, 47, 13, 48, 28⟩, ⟨1588, 718, 870, 7, 24, 22, 25, 30⟩, ⟨1588, 538, 1050, 22, 15, 13, 16, 30⟩],
  [⟨1706, 1370, 336, 10, 114, 2, 115, 28⟩, ⟨1706, 1062, 644, 19, 46, 4, 47, 28⟩, ⟨1706, 754, 952, 28, 22, 6, 23, 28⟩, ⟨1706, 596, 1110, 33, 16, 4, 17, 30⟩],
  [⟨1828, 1468, 360, 8, 122, 4, 123, 30⟩, ⟨1828, 1128, 700, 22, 45, 3, 46, 28⟩, ⟨1828, 808, 1020, 8, 23, 26, 24, 30⟩, ⟨1828, 628, 1200, 12, 15, 28, 16, 30⟩],
  [⟨1921, 1531, 390, 3, 117, 10, 118, 30⟩, ⟨1921, 1193, 728, 3, 45, 23, 46, 28⟩, ⟨1921, 871, 1050, 4, 24, 31, 25, 30⟩, ⟨1921, 661, 1260, 11, 15, 31, 16, 30⟩],
  [⟨2051, 1631, 420, 7, 116, 7, 117, 30⟩, ⟨2051, 1267, 784, 21, 45, 7, 46, 28⟩, ⟨2051, 911, 1140, 1, 23, 37, 24, 30⟩, ⟨2051, 701, 1350, 19, 15, 26, 16, 30⟩],
  [⟨2185, 1735, 450, 5, 115, 10, 116, 30⟩, ⟨2185, 1373, 812, 19, 47, 10, 48, 28⟩, ⟨2185, 985, 1200, 15, 24, 25, 25, 30⟩, ⟨2185, 745, 1440, 23, 15, 25, 16, 30⟩]]

/-- R71, versions 31 to 40. -/
def capacityRows3 : List (List CapacityRow) := [
  [⟨2323, 1843, 480, 13, 115, 3, 116, 30⟩, ⟨2323, 1455, 868, 2, 46, 29, 47, 28⟩, ⟨2323, 1033, 1290, 42, 24, 1, 25, 30⟩, ⟨2323, 793, 1530, 23, 15, 28, 16, 30⟩],
  [⟨2465, 1955, 510, 17, 115, 0, 0, 30⟩, ⟨2465, 1541, 924, 10, 46, 23, 47, 28⟩, ⟨2465, 1115, 1350, 10, 24, 35, 25, 30⟩, ⟨2465, 845, 1620, 19, 15, 35, 16, 30⟩],
  [⟨2611, 2071, 540, 17, 115, 1, 116, 30⟩, ⟨2611, 1631, 980, 14, 46, 21, 47, 28⟩, ⟨2611, 1171, 1440, 29, 24, 19, 25, 30⟩, ⟨2611, 901, 1710, 11, 15, 46, 16, 30⟩],
  [⟨2761, 2191, 570, 13, 115, 6, 116, 30⟩, ⟨2761, 1725, 1036, 14, 46, 23, 47, 28⟩, ⟨2761, 1231, 1530, 44, 24, 7, 25, 30⟩, ⟨2761, 961, 1800, 59, 16, 1, 17, 30⟩],
  [⟨2876, 2306, 570, 12, 121, 7, 122, 30⟩, ⟨2876, 1812, 1064, 12, 47, 26, 48, 28⟩, ⟨2876, 1286, 1590, 39, 24, 14, 25, 30⟩, ⟨2876, 986, 1890, 22, 15, 41, 16, 30⟩],
  [⟨3034, 2434, 600, 6, 121, 14, 122, 30⟩, ⟨3034, 1914, 1120, 6, 47, 34, 48, 28⟩, ⟨3034, 1354, 1680, 46, 24, 10, 25, 30⟩, ⟨3034, 1054, 1980, 2, 15, 64, 16, 30⟩],
  [⟨3196, 2566, 630, 17, 122, 4, 123, 30⟩, ⟨3196, 1992, 1204, 29, 46, 14, 47, 28⟩, ⟨3196, 1426, 1770, 49, 24, 10, 25, 30⟩, ⟨3196, 1096, 2100, 24, 15, 46, 16, 30⟩],
  [⟨3362, 2702, 660, 4, 122, 18, 123, 30⟩, ⟨3362, 2102, 1260, 13, 46, 32, 47, 28⟩, ⟨3362, 1502, 1860, 48, 24, 14, 25, 30⟩, ⟨3362, 1142, 2220, 42, 15, 32, 16, 30⟩],
  [⟨3532, 2812, 720, 20, 117, 4, 118, 30⟩, ⟨3532, 2216, 1316, 40, 47, 7, 48, 28⟩, ⟨3532, 1582, 1950, 43, 24, 22, 25, 30⟩, ⟨3532, 1222, 2310, 10, 15, 67, 16, 30⟩],
  [⟨3706, 2956, 750, 19, 118, 6, 119, 30⟩, ⟨3706, 2334, 1372, 18, 47, 31, 48, 28⟩, ⟨3706, 1666, 2040, 34, 24, 34, 25, 30⟩, ⟨3706, 1276, 2430, 20, 15, 61, 16, 30⟩]]

/-- R71: for each version from 1, its rows for levels L, M, Q, H. -/
def capacityTable : List (List CapacityRow) :=
  capacityRows0 ++ capacityRows1 ++ capacityRows2 ++ capacityRows3

/-- The row of a version 1..40 and a level code 0..3; outside them (no command asks, R81) a row of zeros. -/
def capacityRow (v l : Nat) : CapacityRow :=
  match v with
  | 0 => ⟨0, 0, 0, 0, 0, 0, 0, 0⟩
  | k + 1 => (capacityTable.getD k []).getD l ⟨0, 0, 0, 0, 0, 0, 0, 0⟩

/-- R73: REM at versions 1 to 40. -/
def remainderTable : List Nat := [
  0, 7, 7, 7, 7, 7, 0, 0, 0, 0, 0, 0, 0, 3, 3, 3, 3, 3, 3, 3,
  4, 4, 4, 4, 4, 4, 4, 3, 3, 3, 3, 3, 3, 3, 0, 0, 0, 0, 0, 0]

/-- REM(v), remainder bits of a version 1..40 (R73). -/
def remainderBits (v : Nat) : Nat :=
  match v with
  | 0 => 0
  | k + 1 => remainderTable.getD k 0

/-- The widths of one mode in the three version ranges 1..9, 10..26, 27..40 as one width a version
(R75). -/
def indicatorWidths (small middle large : Nat) : List Nat :=
  List.replicate 9 small ++ List.replicate 17 middle ++ List.replicate 14 large

/-- The default parameters: KanjiBitsPerChar 16 (R8, R9) and the table of R75. -/
def defaultParams : Config.Params where
  kanjiBits := 16
  liNumeric := indicatorWidths 10 12 14
  liAlphanumeric := indicatorWidths 9 11 13
  liByte := indicatorWidths 8 16 16
  liKanji := indicatorWidths 8 10 12

/-- R76: the alignment centres of versions 1 to 40. -/
def alignmentTable : List (List Nat) := [
  [], [6, 18], [6, 22], [6, 26], [6, 30],
  [6, 34], [6, 22, 38], [6, 24, 42], [6, 26, 46], [6, 28, 50],
  [6, 30, 54], [6, 32, 58], [6, 34, 62], [6, 26, 46, 66], [6, 26, 48, 70],
  [6, 26, 50, 74], [6, 30, 54, 78], [6, 30, 56, 82], [6, 30, 58, 86], [6, 34, 62, 90],
  [6, 28, 50, 72, 94], [6, 26, 50, 74, 98], [6, 30, 54, 78, 102], [6, 28, 54, 80, 106], [6, 32, 58, 84, 110],
  [6, 30, 58, 86, 114], [6, 34, 62, 90, 118], [6, 26, 50, 74, 98, 122], [6, 30, 54, 78, 102, 126], [6, 26, 52, 78, 104, 130],
  [6, 30, 56, 82, 108, 134], [6, 34, 60, 86, 112, 138], [6, 30, 58, 86, 114, 142], [6, 34, 62, 90, 118, 146], [6, 30, 54, 78, 102, 126, 150],
  [6, 24, 50, 76, 102, 128, 154], [6, 28, 54, 80, 106, 132, 158], [6, 32, 58, 84, 110, 136, 162], [6, 26, 54, 82, 110, 138, 166], [6, 30, 58, 86, 114, 142, 170]]

/-- A(v), the ascending alignment centres of a version (R76). -/
def alignmentCentres (v : Nat) : List Nat :=
  match v with
  | 0 => []
  | k + 1 => alignmentTable.getD k []

/-- Remainder of a polynomial over GF(2) on division by g of degree deg. The argument steps is one
more than the degree of the quotient: each pass clears the bit deg + k of x (R77, R79 "polynomial
remainder over GF(2)"). -/
def polyRemainder (g deg : Nat) : (steps : Nat) → (x : Nat) → Nat
  | 0, x => x
  | k + 1, x => polyRemainder g deg k (if x.testBit (deg + k) then x ^^^ (g <<< k) else x)

/-- LB(level), the two level bits of the format information: L 01, M 00, Q 11, H 10 (R77). -/
def formatLevelBits (l : Nat) : Nat :=
  match l with
  | 0 => 1
  | 1 => 0
  | 2 => 3
  | _ => 2

/-- G15 of R77. -/
def formatGenerator : Nat := 0x537

/-- The XOR mask of R77. -/
def formatXor : Nat := 0x5412

/-- FormatWord(level, m) (R77): the five data bits, then the ten remainder bits, then the XOR mask. -/
def formatWord (l m : Nat) : BitVec 15 :=
  let data5 := formatLevelBits l * 8 + m
  let rem := polyRemainder formatGenerator 10 5 (data5 <<< 10)
  BitVec.ofNat 15 (((data5 <<< 10) ||| rem) ^^^ formatXor)

/-- G18 of R79. -/
def versionGenerator : Nat := 0x1F25

/-- VersionWord(v) (R79): the six version bits, then the twelve remainder bits. -/
def versionWord (v : Nat) : BitVec 18 :=
  BitVec.ofNat 18 ((v <<< 12) ||| polyRemainder versionGenerator 12 6 (v <<< 12))

end Sys2Proof.Machine
end

