-- ==== Sys2Proof/Machine/State.lean ====
section
/-! DEFINITION. The state of PQR-SCB (10_state.md), of its one Host port (20_memory.md R42), and the
ways a step can stop. -/

namespace Sys2Proof.Machine

open Sys2Proof

/-- STATUS.FRAME_STAGE (R27): how far the frame store has been built. -/
inductive FrameStage where
  /-- 0 NONE: FRAME holds no symbol. -/
  | none
  /-- 1 SKELETON: FRAME_INIT has run. -/
  | skeleton
  /-- 2 FILLED: FRAME_FILL has run after it. -/
  | filled
  /-- 3 MASKED: MASK has run after FRAME_FILL. -/
  | masked
  deriving DecidableEq, Repr

/-- The completion codes of R125, one constructor each. -/
inductive ErrCode where
  | ok | invalidArgument | capacityExceeded | invalidPayloadForMode | engineConstructionFailure
  | emptyInput | illegalCommand | notReady | cursorExhausted | segmentListFull
  deriving DecidableEq, Repr

/-- The four modes a segment can have (R59). -/
inductive Mode where
  | numeric | alphanumeric | byte | kanji
  deriving DecidableEq, Repr

/-- One entry of SEG_TABLE (R36): its mode and its character count. -/
structure Segment where
  mode : Mode
  count : BitVec 16
  deriving DecidableEq, Repr

/-- The twelve spec result registers (R30), each as wide as its field (R21). -/
structure SpecRegs where
  /-- VERSION_RES. -/
  version : BitVec 6
  /-- LEVEL_RES. -/
  level : BitVec 2
  /-- WIDTH. -/
  width : BitVec 8
  /-- TOTAL_CW. -/
  totalCw : BitVec 12
  /-- DATA_CW. -/
  dataCw : BitVec 12
  /-- ECC_CW. -/
  eccCw : BitVec 12
  /-- REM_BITS. -/
  remBits : BitVec 3
  /-- G1_COUNT. -/
  g1Count : BitVec 7
  /-- G2_COUNT. -/
  g2Count : BitVec 7
  /-- G1_DATA. -/
  g1Data : BitVec 8
  /-- G2_DATA. -/
  g2Data : BitVec 8
  /-- ECC_PER_BLOCK. -/
  eccPerBlock : BitVec 5
  deriving DecidableEq, Repr

/-- The spec result registers after reset: all 0 (R136). -/
def SpecRegs.zero : SpecRegs := ⟨0, 0, 0, 0, 0, 0, 0, 0, 0, 0, 0, 0⟩

/-- FILL_POS, the whole state of the filler cursor (R33). -/
structure FillPos where
  /-- COL, bits 7:0. -/
  col : BitVec 8
  /-- ROW, bits 15:8. -/
  row : BitVec 8
  /-- UP, bit 16. -/
  up : Bool
  /-- RIGHT, bit 17. -/
  right : Bool
  /-- STARTED, bit 18. -/
  started : Bool
  deriving DecidableEq, Repr

/-- FILL_POS before any position has been reported: all 0 (R33, R118). -/
def FillPos.zero : FillPos := ⟨0, 0, false, false, false⟩

/-- The storage of R37 and R39, keyed by Host address (R43): strictly rising addresses, one entry for
each byte that has been written. An address without an entry holds no value (R38; log entry 1), so no
entry can equal what an unlisted address reads as. A frame cell is one byte, bit 0 DARK and bit 1
RESERVED (R40). -/
abbrev Memory := List Host.Cell

/-- What the Host does at its port, with the names of R66 and R67. -/
inductive HostAction where
  /-- MemRead(addr, 4). -/
  | lw (addr : Word)
  /-- MemRead(addr, 1). -/
  | lb (addr : Word)
  /-- MemWrite(addr, 4, v). -/
  | sw (addr v : Word)
  /-- MemWrite(addr, 1, v). -/
  | sb (addr : Word) (v : Byte)
  /-- The pseudo-instruction `wait`: read STATUS until its bit 0 is 0. -/
  | wait
  deriving DecidableEq, Repr

/-- Why a step stops: exactly the model faults of R130. -/
inductive Fault where
  /-- A Host access to an unmapped address, of the wrong width or misaligned (R44, R45). Raised by a Host
  access at the port. Safe: the spec leaves the outcome open and asks a model to stop. -/
  | busError
  /-- An Engine read of a buffer byte or frame cell that nothing has written (R15, R38). Raised by
  RS_ENCODE, ASSEMBLE, CW_NEXT, FILL_NEXT, FRAME_FILL and MASK. Safe: the hardware uses whatever the
  storage holds. -/
  | unwrittenRead
  /-- A Host access other than reading STATUS or ERRCODE while BUSY = 1 (R139). Raised by a Host access at
  the port. Safe: the spec leaves the outcome open. -/
  | busyHazard
  deriving DecidableEq, Repr

/-- Why a step answers no state at all. -/
inductive Refusal where
  /-- An instruction without a meaning in this model. Raised by no arm of exec: every command has its
  meaning. Safe. -/
  | notModelled (mnemonic : String)
  deriving DecidableEq, Repr

end Sys2Proof.Machine

namespace Sys2Proof.Machine

open Sys2Proof

/-- The state of the machine. The registers of R21 come first, each field as wide as R21 gives it; then the
storage; then the parameters of R8; then the four fields of the model's own: the Host's side of the port
and the counters of the free values. GF_EXP, GF_LOG and the tables of 41_capacity_tables.md are constant
and no state (R18). -/
structure State where
  /-- CMD (R23): the last word the Host wrote to it, the command word in execution while BUSY = 1 (R41). -/
  cmd : Word
  /-- STATUS.BUSY (R24). -/
  busy : Bool
  /-- STATUS.ERR (R25). -/
  err : Bool
  /-- STATUS.SPEC_VALID (R26). -/
  specValid : Bool
  /-- STATUS.FRAME_STAGE (R27). -/
  frameStage : FrameStage
  /-- ERRCODE.CODE (R28). -/
  errcode : BitVec 4
  /-- SEG_TABLE entries 0..SEGCOUNT-1 in insertion order (R36); SEGCOUNT (R29) is their number, and an
  entry at or above it reads 0 and is read by no command (log entry 8). -/
  segments : List Segment
  /-- The spec result registers (R30). -/
  spec : SpecRegs
  /-- REQ_BITS (R31). -/
  reqBits : BitVec 15
  /-- FRAME_VERSION (R32). -/
  frameVersion : BitVec 6
  /-- MASK_CUR (R32). -/
  maskCur : BitVec 3
  /-- FORMAT_BITS (R32). -/
  formatBits : BitVec 15
  /-- VERSION_BITS (R32). -/
  versionBits : BitVec 18
  /-- FILL_POS (R33). -/
  fillPos : FillPos
  /-- CW_INDEX (R34). -/
  cwIndex : BitVec 12
  /-- CW_OUT (R34). -/
  cwOut : BitVec 8
  /-- GEN_DEGREE (R35). -/
  genDegree : BitVec 9
  /-- DATA_BUF, STREAM_BUF, BLK_BUF, GEN_BUF, ECC_BUF (R37) and FRAME (R39) with their written marks
  (R41). -/
  mem : Memory
  /-- The parameters of this build (R8, R9, R10), which nothing changes (log entry 9). -/
  params : Config.Params
  /-- MODEL'S OWN. The accesses the Host has put to its port and the port has not served, the one
  presented now first (R42; log entry 5). -/
  port : List HostAction
  /-- MODEL'S OWN. The values that lw and lb have returned to the Host, the newest first (log entry 5). -/
  replies : List Word
  /-- MODEL'S OWN. While BUSY = 1: how many more Host reads come before the completion, if the Host makes
  them (R143; log entry 3). 0 while BUSY = 0. -/
  busyLeft : Nat
  /-- MODEL'S OWN. How many free values have been drawn (log entries 2 and 3). -/
  draws : Nat
  deriving DecidableEq, Repr

/-- The machine right after reset (R136): every register 0, no byte written. The model's own fields start
empty and at 0, and the parameters are the defaults of R8 (log entries 5, 9 and 16). -/
def State.reset : State where
  cmd := 0
  busy := false
  err := false
  specValid := false
  frameStage := .none
  errcode := 0
  segments := []
  spec := .zero
  reqBits := 0
  frameVersion := 0
  maskCur := 0
  formatBits := 0
  versionBits := 0
  fillPos := .zero
  cwIndex := 0
  cwOut := 0
  genDegree := 0
  mem := []
  params := defaultParams
  port := []
  replies := []
  busyLeft := 0
  draws := 0

end Sys2Proof.Machine
end

