-- ==== Sys2Proof/Machine/Memory.lean ====
section
/-! DEFINITION. The address map (20_memory.md R43) and the operations on the storage. -/

namespace Sys2Proof.Machine

open Sys2Proof

/-- First Host address of DATA_BUF (R43). -/
def dataBase : Nat := 0x1000
/-- First Host address of STREAM_BUF (R43). -/
def streamBase : Nat := 0x2000
/-- First Host address of BLK_BUF (R43). -/
def blkBase : Nat := 0x3000
/-- First Host address of GEN_BUF (R43). -/
def genBase : Nat := 0x3100
/-- First Host address of GF_EXP (R43). -/
def gfExpBase : Nat := 0x3200
/-- First Host address of GF_LOG (R43). -/
def gfLogBase : Nat := 0x3300
/-- First Host address of SEG_TABLE (R43). -/
def segBase : Nat := 0x3400
/-- First Host address of ECC_BUF (R43). -/
def eccBase : Nat := 0x4000
/-- First Host address of FRAME (R43). -/
def frameBase : Nat := 0x10000
/-- The first address after the FRAME region (R43: it ends at 0x1B0FF). -/
def frameEnd : Nat := 0x1B100

/-- Host address of frame cell (r, c) (R40). -/
def cellAddr (r c : Nat) : Nat := frameBase + 256 * r + c

/-- What stands at a mapped address (R43). -/
inductive Region where
  /-- A register or a reserved register offset. -/
  | reg (offset : Nat)
  /-- A byte of DATA_BUF, STREAM_BUF, BLK_BUF or ECC_BUF: the Host reads and writes it. -/
  | buffer
  /-- A byte of GEN_BUF, read-only to the Host. -/
  | genBuf
  /-- Byte i of GF_EXP. -/
  | gfExp (i : Nat)
  /-- Byte i of GF_LOG. -/
  | gfLog (i : Nat)
  /-- Entry i of SEG_TABLE. -/
  | segTable (i : Nat)
  /-- Frame cell (r, c). -/
  | frame (r c : Nat)
  deriving DecidableEq, Repr

/-- The address map of R43; none is an unmapped address. -/
def regionOf (a : Nat) : Option Region :=
  if a ≤ 0xFF then some (.reg a)
  else if 0x1000 ≤ a ∧ a ≤ 0x1FFF then some .buffer
  else if 0x2000 ≤ a ∧ a ≤ 0x2FFF then some .buffer
  else if 0x3000 ≤ a ∧ a ≤ 0x30FF then some .buffer
  else if 0x3100 ≤ a ∧ a ≤ 0x31FF then some .genBuf
  else if 0x3200 ≤ a ∧ a ≤ 0x32FF then some (.gfExp (a - 0x3200))
  else if 0x3300 ≤ a ∧ a ≤ 0x33FF then some (.gfLog (a - 0x3300))
  else if 0x3400 ≤ a ∧ a ≤ 0x37FF then some (.segTable ((a - 0x3400) / 4))
  else if 0x4000 ≤ a ∧ a ≤ 0x4FFF then some .buffer
  else if 0x10000 ≤ a ∧ a ≤ 0x1B0FF then
    if (a - 0x10000) % 256 ≤ 176 then some (.frame ((a - 0x10000) / 256) ((a - 0x10000) % 256)) else none
  else none

/-- The value at an address, if something has written it (R38). -/
def Memory.read : Memory → Nat → Option Byte
  | [], _ => none
  | (k, b) :: m, a => if k = a then some b else Memory.read m a

/-- Write one byte, keeping the addresses strictly rising. -/
def Memory.write : Memory → Nat → Byte → Memory
  | [], a, v => [(a, v)]
  | (k, b) :: m, a, v =>
    if a < k then (a, v) :: (k, b) :: m
    else if a = k then (a, v) :: m
    else (k, b) :: Memory.write m a v

/-- The bytes of a list as entries from an address on. -/
def cellsFrom : Nat → List Byte → List Host.Cell
  | _, [] => []
  | a, b :: bs => (a, b) :: cellsFrom (a + 1) bs

/-- Write the bytes of a list from an address on, all at once. -/
def Memory.writeRange (m : Memory) (base : Nat) (bs : List Byte) : Memory :=
  m.filter (fun e => e.1 < base) ++ cellsFrom base bs ++ m.filter (fun e => base + bs.length ≤ e.1)

/-- The values of a list of reads, if every one of them has a value. -/
def allSome {α : Type} : List (Option α) → Option (List α)
  | [] => some []
  | none :: _ => none
  | some x :: xs =>
    match allSome xs with
    | none => none
    | some ys => some (x :: ys)

/-- The n bytes from an address on, if all of them have been written (R15). -/
def Memory.readRange (m : Memory) (base n : Nat) : Option (List Byte) :=
  allSome ((List.range n).map fun i => m.read (base + i))

/-- The canonical form: strictly rising addresses. -/
abbrev Memory.wf (m : Memory) : Prop := List.Pairwise (fun e f : Host.Cell => e.1 < f.1) m

/-- The address names a stored byte: a buffer byte, GEN_BUF or a mapped frame cell (R43). -/
def isStorage (a : Nat) : Bool :=
  match regionOf a with
  | some .buffer | some .genBuf | some (.frame _ _) => true
  | some (.reg _) | some (.gfExp _) | some (.gfLog _) | some (.segTable _) | none => false

end Sys2Proof.Machine
end

