-- ==== Sys2Proof/Machine/Flags.lean ====
section
/-! DEFINITION. STATUS as the Host sees and writes it (10_state.md R21, R24 to R27). -/

namespace Sys2Proof.Machine

open Sys2Proof

/-- The two bits of FRAME_STAGE (R27). -/
def FrameStage.bits : FrameStage → BitVec 2
  | .none => 0
  | .skeleton => 1
  | .filled => 2
  | .masked => 3

/-- STATUS: [0] BUSY, [1] ERR, [2] SPEC_VALID, [5:4] FRAME_STAGE, the other bits 0 (R21). -/
def statusWord (s : State) : Word :=
  0#26 ++ s.frameStage.bits ++ 0#1 ++ BitVec.ofBool s.specValid ++ BitVec.ofBool s.err
    ++ BitVec.ofBool s.busy

/-- A Host write to STATUS: bit 1 = 1 clears ERR, every other bit is ignored (R25). -/
def writeStatus (s : State) (v : Word) : State :=
  { s with err := s.err && !v.getLsbD 1 }

/-- FRAME_STAGE is at least FILLED (R124: st ≥ 2). -/
def FrameStage.isFilled : FrameStage → Bool
  | .none | .skeleton => false
  | .filled | .masked => true

end Sys2Proof.Machine
end

