-- ==== Sys2Proof/Machine/Operands.lean ====
section
/-! DEFINITION. Operand values and the packed forms of segments and cursor positions: 30_encoding.md R59,
R61; 10_state.md R33, R36. -/

namespace Sys2Proof.Machine

open Sys2Proof

/-- The mode of a MODE operand; 4 (StructuredAppend) and 5..7 name none (R59). -/
def modeOfOperand (m : BitVec 3) : Option Mode :=
  match m.toNat with
  | 0 => some .numeric
  | 1 => some .alphanumeric
  | 2 => some .byte
  | 3 => some .kanji
  | _ => none

/-- The mode code of a mode (R59). -/
def Mode.code : Mode → BitVec 3
  | .numeric => 0
  | .alphanumeric => 1
  | .byte => 2
  | .kanji => 3

/-- A SEG_TABLE entry as the Host reads it: MODE in bits 18:16, COUNT in bits 15:0 (R36). -/
def Segment.word (g : Segment) : Word := 0#13 ++ g.mode.code ++ g.count

/-- Entry i of SEG_TABLE as the Host reads it: 0 at and above SEGCOUNT (R36). -/
def segTableWord (s : State) (i : Nat) : Word :=
  match s.segments[i]? with
  | some g => g.word
  | none => 0

/-- SEGCOUNT.COUNT (R29). -/
def segCount (s : State) : BitVec 9 := BitVec.ofNat 9 s.segments.length

/-- FILL_POS as the Host reads it (R21): STARTED ‖ RIGHT ‖ UP ‖ ROW ‖ COL. -/
def FillPos.word (p : FillPos) : Word :=
  0#13 ++ BitVec.ofBool p.started ++ BitVec.ofBool p.right ++ BitVec.ofBool p.up ++ p.row ++ p.col

/-- A VERSION that SEL_RUN takes: 0 for auto, or 1..40 (R61). -/
def legalRunVersion (v : BitVec 6) : Bool := v.toNat ≤ Config.maxVersion

/-- A VERSION that SPEC_QUERY takes: 1..40 (R61, R82). -/
def legalQueryVersion (v : BitVec 6) : Bool := 1 ≤ v.toNat && v.toNat ≤ Config.maxVersion

/-- The block sizes RS_ENCODE takes: N ≥ 1 and K + N ≤ 255 (R103). -/
def legalBlock (k n : Byte) : Bool := 1 ≤ n.toNat && k.toNat + n.toNat ≤ Config.codeLength

end Sys2Proof.Machine
end

