-- ==== Sys2Proof/Machine/Registers.lean ====
section
/-! DEFINITION. The register map (10_state.md R21): names, offsets and the 32-bit value the Host reads. -/

namespace Sys2Proof.Machine

open Sys2Proof

/-- The registers of R21 in the order of their offsets. -/
inductive Reg where
  | cmd | status | errcode | segcount | versionRes | levelRes | width | totalCw | dataCw | eccCw
  | remBits | g1Count | g2Count | g1Data | g2Data | eccPerBlock | reqBits | frameVersion | maskCur
  | formatBits | versionBits | fillPos | cwIndex | cwOut | genDegree
  deriving DecidableEq, Repr

/-- Every register. -/
def Reg.all : List Reg :=
  [.cmd, .status, .errcode, .segcount, .versionRes, .levelRes, .width, .totalCw, .dataCw, .eccCw,
   .remBits, .g1Count, .g2Count, .g1Data, .g2Data, .eccPerBlock, .reqBits, .frameVersion, .maskCur,
   .formatBits, .versionBits, .fillPos, .cwIndex, .cwOut, .genDegree]

/-- The offset of a register (R21). -/
def Reg.offset : Reg → Nat
  | .cmd => 0x000
  | .status => 0x004
  | .errcode => 0x008
  | .segcount => 0x00C
  | .versionRes => 0x010
  | .levelRes => 0x014
  | .width => 0x018
  | .totalCw => 0x01C
  | .dataCw => 0x020
  | .eccCw => 0x024
  | .remBits => 0x028
  | .g1Count => 0x02C
  | .g2Count => 0x030
  | .g1Data => 0x034
  | .g2Data => 0x038
  | .eccPerBlock => 0x03C
  | .reqBits => 0x040
  | .frameVersion => 0x044
  | .maskCur => 0x048
  | .formatBits => 0x04C
  | .versionBits => 0x050
  | .fillPos => 0x054
  | .cwIndex => 0x058
  | .cwOut => 0x05C
  | .genDegree => 0x060

/-- The 32-bit value of a register: its fields where R21 puts them, 0 elsewhere. -/
def Reg.read (r : Reg) (s : State) : Word :=
  match r with
  | .cmd => s.cmd
  | .status => statusWord s
  | .errcode => s.errcode.setWidth 32
  | .segcount => (segCount s).setWidth 32
  | .versionRes => s.spec.version.setWidth 32
  | .levelRes => s.spec.level.setWidth 32
  | .width => s.spec.width.setWidth 32
  | .totalCw => s.spec.totalCw.setWidth 32
  | .dataCw => s.spec.dataCw.setWidth 32
  | .eccCw => s.spec.eccCw.setWidth 32
  | .remBits => s.spec.remBits.setWidth 32
  | .g1Count => s.spec.g1Count.setWidth 32
  | .g2Count => s.spec.g2Count.setWidth 32
  | .g1Data => s.spec.g1Data.setWidth 32
  | .g2Data => s.spec.g2Data.setWidth 32
  | .eccPerBlock => s.spec.eccPerBlock.setWidth 32
  | .reqBits => s.reqBits.setWidth 32
  | .frameVersion => s.frameVersion.setWidth 32
  | .maskCur => s.maskCur.setWidth 32
  | .formatBits => s.formatBits.setWidth 32
  | .versionBits => s.versionBits.setWidth 32
  | .fillPos => s.fillPos.word
  | .cwIndex => s.cwIndex.setWidth 32
  | .cwOut => s.cwOut.setWidth 32
  | .genDegree => s.genDegree.setWidth 32

/-- The register at an offset; none is a reserved offset (R22). -/
def Reg.ofOffset (off : Nat) : Option Reg := Reg.all.find? fun r => r.offset == off

/-- What a read at a register offset returns: 0 at a reserved one (R22). -/
def readOffset (s : State) (off : Nat) : Word :=
  match Reg.ofOffset off with
  | some r => r.read s
  | none => 0

end Sys2Proof.Machine
end

