-- ==== Sys2Proof/Machine/Ops.lean ====
section
/-! DEFINITION. The operations every command shares: its completion, with success or with an error
(60_exceptions.md R126, R127), and the Engine's checked reads (00_scope.md R15). The block has no traps and
no trap return (R132, R133): the error completion is what takes their place. -/

namespace Sys2Proof.Machine

open Sys2Proof

/-- What an instruction's meaning answers. -/
abbrev Result := Host.Outcome State Fault Refusal

/-- The number of a completion code (R125). -/
def ErrCode.code : ErrCode → BitVec 4
  | .ok => 0
  | .invalidArgument => 1
  | .capacityExceeded => 2
  | .invalidPayloadForMode => 3
  | .engineConstructionFailure => 4
  | .emptyInput => 5
  | .illegalCommand => 6
  | .notReady => 7
  | .cursorExhausted => 8
  | .segmentListFull => 9

/-- The writes of a success completion: ERRCODE <- 0, BUSY <- 0; ERR stays (R126). -/
def State.complete (s : State) : State :=
  { s with errcode := ErrCode.ok.code, busy := false, busyLeft := 0 }

/-- The writes of an error completion: ERRCODE <- code, ERR <- 1, BUSY <- 0 (R127). -/
def State.fail (s : State) (c : ErrCode) : State :=
  { s with errcode := c.code, err := true, busy := false, busyLeft := 0 }

/-- End the command with success (R126). The argument carries the writes of the command's rule. -/
def succeed (s : State) : Result := .next s.complete

/-- `raise Error(code)` (R14, R127). The argument is the state the command found, so none of the writes
of its rule is made. -/
def raiseError (c : ErrCode) (s : State) : Result := .next (s.fail c)

/-- Go on with the values of a checked read, or stop at `fault Model(UnwrittenRead)` (R15). -/
def withRead {α : Type} (o : Option α) (k : α → Result) : Result :=
  match o with
  | some x => k x
  | none => .fault .unwrittenRead

/-- The end of a command word that is no command (R63, R64). -/
def illegalCommand (s : State) : Result := raiseError .illegalCommand s

/-- Every register at its reset value; buffers, frame and their written marks stay, and so does what is
no register of the block (R69). -/
def resetRegisters (s : State) : State :=
  { State.reset with
    mem := s.mem, params := s.params, port := s.port, replies := s.replies, draws := s.draws }

/-- SpecLoad's values for a version 1..40 and a level code (R81). -/
def SpecRegs.of (v l : Nat) : SpecRegs :=
  let row := capacityRow v l
  { version := BitVec.ofNat 6 v
    level := BitVec.ofNat 2 l
    width := BitVec.ofNat 8 (symbolWidth v)
    totalCw := BitVec.ofNat 12 row.total
    dataCw := BitVec.ofNat 12 row.data
    eccCw := BitVec.ofNat 12 row.ecc
    remBits := BitVec.ofNat 3 (remainderBits v)
    g1Count := BitVec.ofNat 7 row.g1
    g2Count := BitVec.ofNat 7 row.g2
    g1Data := BitVec.ofNat 8 row.d1
    g2Data := BitVec.ofNat 8 row.d2
    eccPerBlock := BitVec.ofNat 5 row.eccPerBlock }

/-- SpecLoad(v, l): the one operation that writes the spec result registers (R81). -/
def State.loadSpec (s : State) (v l : Nat) : State :=
  { s with spec := SpecRegs.of v l, specValid := true }

end Sys2Proof.Machine
end

