-- ==== Sys2Proof/Machine/Assembler.lean ====
section
/-! DEFINITION. The raw codeword assembler and the codeword cursor (44_codeword_assembler.md). -/

namespace Sys2Proof.Machine

open Sys2Proof

/-- B, the block count (R104). -/
def SpecRegs.blocks (x : SpecRegs) : Nat := x.g1Count.toNat + x.g2Count.toNat

/-- size(b) (R104). -/
def SpecRegs.blockSize (x : SpecRegs) (b : Nat) : Nat :=
  if b < x.g1Count.toNat then x.g1Data.toNat else x.g2Data.toNat

/-- off(b) (R104). -/
def SpecRegs.blockOffset (x : SpecRegs) (b : Nat) : Nat :=
  if b < x.g1Count.toNat then b * x.g1Data.toNat
  else x.g1Count.toNat * x.g1Data.toNat + (b - x.g1Count.toNat) * x.g2Data.toNat

/-- The Host address of CW(p), the byte at position p of the interleaved stream (R106). The group-2
switch is at col ≥ D1 (90_conflicts.md C3). -/
def SpecRegs.codewordAddr (x : SpecRegs) (p : Nat) : Nat :=
  if p < x.dataCw.toNat then
    let col := p / x.blocks
    let row := if x.g1Data.toNat ≤ col then p % x.blocks + x.g1Count.toNat else p % x.blocks
    dataBase + (x.blockOffset row + col)
  else
    let q := p - x.dataCw.toNat
    eccBase + ((q % x.blocks) * x.eccPerBlock.toNat + q / x.blocks)

/-- The ecc codewords of block b (R104, R105), if its data codewords have been written. -/
def blockEcc (x : SpecRegs) (m : Memory) (b : Nat) : Option (List Byte) :=
  (m.readRange (dataBase + x.blockOffset b) (x.blockSize b)).map fun d => rsEncode d x.eccPerBlock.toNat

/-- The ecc codewords of every block, block-major: ECC_BUF[0..E-1] (R104, R108). -/
def allEcc (x : SpecRegs) (m : Memory) : Option (List Byte) :=
  (allSome ((List.range x.blocks).map (blockEcc x m))).map List.flatten

/-- The whole interleaved stream as the buffers stand: CW(0) … CW(T-1) (R106, R108). -/
def streamOf (x : SpecRegs) (m : Memory) : Option (List Byte) :=
  allSome ((List.range x.totalCw.toNat).map fun p => m.read (x.codewordAddr p))

/-- ASSEMBLE (R108): every ECC_BUF write comes before the first STREAM_BUF write. -/
def execAssemble (s : State) : Result :=
  if !s.specValid then raiseError .notReady s
  else
    withRead (allEcc s.spec s.mem) fun ecc =>
      let m1 := s.mem.writeRange eccBase ecc
      withRead (streamOf s.spec m1) fun stream =>
        succeed { s with mem := m1.writeRange streamBase stream }

/-- CW_RESET (R109). -/
def execCwReset (s : State) : Result := succeed { s with cwIndex := 0 }

/-- CW_NEXT (R110). -/
def execCwNext (s : State) : Result :=
  if !s.specValid then raiseError .notReady s
  else if s.spec.totalCw.toNat ≤ s.cwIndex.toNat then raiseError .cursorExhausted s
  else
    withRead (s.mem.read (s.spec.codewordAddr s.cwIndex.toNat)) fun b =>
      succeed { s with cwOut := b, cwIndex := BitVec.ofNat 12 (s.cwIndex.toNat + 1) }

end Sys2Proof.Machine
end

