-- ==== Sys2Proof/Machine/Control.lean ====
section
/-! DEFINITION. The control commands (40_control.md). -/

namespace Sys2Proof.Machine

open Sys2Proof

/-- NOP (R68). -/
def execNop (s : State) : Result := succeed s

/-- SOFT_RESET (R69): CMD and STATUS are among the registers it resets. -/
def execSoftReset (s : State) : Result := succeed (resetRegisters s)

end Sys2Proof.Machine
end

