-- ==== Sys2Proof/Machine/Frame.lean ====
section
/-! DEFINITION. The frame skeleton (45_frame_placement.md R111, R112) and the cells of the frame store
(10_state.md R39, R40). -/

namespace Sys2Proof.Machine

open Sys2Proof

/-- The byte of a cell: bit 0 DARK, bit 1 RESERVED (R40). -/
def cellByte (dark reserved : Bool) : Byte := 0#6 ++ BitVec.ofBool reserved ++ BitVec.ofBool dark

/-- DARK of a cell. -/
def cellDark (b : Byte) : Bool := b.getLsbD 0

/-- RESERVED of a cell. -/
def cellReserved (b : Byte) : Bool := b.getLsbD 1

/-- |a - b|. -/
def absDiff (a b : Nat) : Nat := (a - b) + (b - a)

/-- The larger of the row and column distances of (r, c) from a centre. -/
def ringOf (rc cc r c : Nat) : Nat := max (absDiff r rc) (absDiff c cc)

/-- Step 1 of R111 at (r, c), for the finder pattern whose corner is (r0, c0): its centre is
(r0 + 3, c0 + 3) and dr, dc run over -1..7, so the distance from the centre is at most 4. The answer is
the DARK the step sets, or none where it sets nothing. -/
def finderAt (r0 c0 r c : Nat) : Option Bool :=
  let ring := ringOf (r0 + 3) (c0 + 3) r c
  if ring ≤ 4 then some (ring == 0 || ring == 1 || ring == 3) else none

/-- Step 1 of R111: the three finder patterns with their separators. -/
def finderStep (w r c : Nat) : Option Bool :=
  (finderAt 0 0 r c).or ((finderAt 0 (w - 7) r c).or (finderAt (w - 7) 0 r c))

/-- Step 2 of R111: what the timing patterns set at a free cell. -/
def timingStep (r c : Nat) : Option Bool :=
  if r = 6 then some (c % 2 == 0) else if c = 6 then some (r % 2 == 0) else none

/-- The centres of step 3 (R112): every pair but the three that lie in a finder pattern. -/
def alignmentPairs (v : Nat) : List (Nat × Nat) :=
  let a := alignmentCentres v
  let n := a.length
  (List.range n).flatMap fun i =>
    ((List.range n).filter fun j =>
      !((i == 0 && j == 0) || (i == 0 && j == n - 1) || (i == n - 1 && j == 0))).map fun j =>
        (a.getD i 0, a.getD j 0)

/-- Step 3 of R111 (R112): dr and dc run over -2..2; the ring at distance 1 is light. -/
def alignmentStep (pairs : List (Nat × Nat)) (r c : Nat) : Option Bool :=
  match pairs.find? fun p => ringOf p.1 p.2 r c ≤ 2 with
  | some p => some (ringOf p.1 p.2 r c != 1)
  | none => none

/-- Step 4 of R111, the part that sets only free cells. -/
def formatFreeStep (r c : Nat) : Option Bool :=
  if (r = 8 ∧ c ≤ 8) ∨ (c = 8 ∧ r ≤ 8) then some false else none

/-- Step 4 of R111, the part that sets its cells in any case. -/
def formatStep (w r c : Nat) : Option Bool :=
  if (r = 8 ∧ w - 8 ≤ c ∧ c < w) ∨ (c = 8 ∧ w - 7 ≤ r ∧ r < w) then some false else none

/-- Step 5 of R111: the dark module. -/
def darkStep (w r c : Nat) : Option Bool :=
  if r = w - 8 ∧ c = 8 then some true else none

/-- Step 6 of R111: the version information, versions 7 and up, in two blocks. -/
def versionStep (v w r c : Nat) : Option Bool :=
  if v < 7 then none
  else if r < 6 ∧ w - 11 ≤ c ∧ c ≤ w - 9 then some ((versionWord v).getLsbD (3 * r + (c - (w - 11))))
  else if c < 6 ∧ w - 11 ≤ r ∧ r ≤ w - 9 then some ((versionWord v).getLsbD (3 * c + (r - (w - 11))))
  else none

/-- What the steps of R111 leave at (r, c), as the DARK of a reserved cell, or none for a free cell. The
steps stand latest first, since a later step overwrites an earlier one; a step that sets only free cells
stands behind the steps before it (log entry 11). The alignment centres are an argument so that they are
listed once. -/
def skeletonDark (v w : Nat) (pairs : List (Nat × Nat)) (r c : Nat) : Option Bool :=
  (versionStep v w r c).or <|
  (darkStep w r c).or <|
  (formatStep w r c).or <|
  ((alignmentStep pairs r c).or <|
  (finderStep w r c).or <|
  timingStep r c).or <|
  formatFreeStep r c

/-- The byte of cell (r, c) of Skeleton(v) (R111): {0, 0} outside W and at a free cell. -/
def skeletonByte (v w : Nat) (pairs : List (Nat × Nat)) (r c : Nat) : Byte :=
  if r < w ∧ c < w then
    match skeletonDark v w pairs r c with
    | some d => cellByte d true
    | none => cellByte false false
  else cellByte false false

/-- Row r of the frame store, as entries of the memory. -/
def frameRow (cell : Nat → Nat → Byte) (r : Nat) : List Host.Cell :=
  (List.range Config.maxWidth).map fun c => (cellAddr r c, cell r c)

/-- The whole frame store, 177 × 177 cells, as entries of the memory (R39). -/
def frameCells (cell : Nat → Nat → Byte) : List Host.Cell :=
  (List.range Config.maxWidth).flatMap (frameRow cell)

/-- FRAME <- the given cells, all of them (R117). -/
def Memory.writeFrame (m : Memory) (cell : Nat → Nat → Byte) : Memory :=
  m.filter (fun e => e.1 < frameBase) ++ frameCells cell ++ m.filter (fun e => frameEnd ≤ e.1)

/-- Skeleton(v) (R111). -/
def skeleton (v : Nat) : Nat → Nat → Byte := skeletonByte v (symbolWidth v) (alignmentPairs v)

/-- VERSION_BITS for a frame version: VersionWord(v), or 0 below 7 (R32, R117). -/
def versionBitsOf (v : Nat) : BitVec 18 := if 7 ≤ v then versionWord v else 0

/-- FRAME_INIT (R117). -/
def execFrameInit (s : State) : Result :=
  if !s.specValid then raiseError .notReady s
  else
    succeed { s with
      mem := s.mem.writeFrame (skeleton s.spec.version.toNat)
      frameVersion := s.spec.version
      versionBits := versionBitsOf s.spec.version.toNat
      maskCur := 0
      formatBits := 0
      fillPos := .zero
      frameStage := .skeleton }

end Sys2Proof.Machine
end

