-- ==== Sys2Proof/Machine/Fill.lean ====
section
/-! DEFINITION. The zigzag traversal, the filler cursor and FRAME_FILL (45_frame_placement.md R114 to
R120). -/

namespace Sys2Proof.Machine

open Sys2Proof

/-- A position of the raw traversal: (r, c, up, right) (R115). -/
structure Cursor where
  r : Nat
  c : Nat
  up : Bool
  right : Bool
  deriving DecidableEq, Repr

/-- Start of R115: the bottom-right corner, moving up, right column of the pair. -/
def cursorStart (w : Nat) : Cursor := ⟨w - 1, w - 1, true, true⟩

/-- Step of R115; none is END. -/
def cursorStep (w : Nat) (s : Cursor) : Option Cursor :=
  if s.right then some ⟨s.r, s.c - 1, s.up, false⟩
  else
    let c1 := s.c + 1
    if s.up ∧ 1 ≤ s.r ∧ s.r - 1 < w then some ⟨s.r - 1, c1, true, true⟩
    else if s.up = false ∧ s.r + 1 < w then some ⟨s.r + 1, c1, false, true⟩
    else if c1 < 2 then none
    else
      let c2 := if c1 - 2 = 6 then 5 else c1 - 2
      some ⟨s.r, c2, !s.up, true⟩

/-- The positions from a cursor on, up to END or to the bound. -/
def cursorPath (w : Nat) : (bound : Nat) → Option Cursor → List Cursor
  | 0, _ => []
  | _, none => []
  | n + 1, some s => s :: cursorPath w n (cursorStep w s)

/-- A bound that no traversal of the frame store reaches: it has W·(W-1) positions (R115; log entry 18). -/
def pathBound (w : Nat) : Nat := w * w

/-- What a search for free cells finds. -/
inductive FreeCells where
  /-- As many as were asked for. -/
  | found (cells : List Cursor)
  /-- END came first. -/
  | exhausted
  /-- A cell that nothing has written came first (R15). -/
  | unwritten
  deriving DecidableEq, Repr

/-- The first n free cells of a path: NextFree of R116, n times over. It reads RESERVED of each cell
it passes and of none after the last it takes. -/
def firstFree (m : Memory) : (n : Nat) → List Cursor → FreeCells
  | 0, _ => .found []
  | _ + 1, [] => .exhausted
  | n + 1, s :: path =>
    match m.read (cellAddr s.r s.c) with
    | none => .unwritten
    | some b =>
      if cellReserved b then firstFree m (n + 1) path
      else
        match firstFree m n path with
        | .found cells => .found (s :: cells)
        | .exhausted => .exhausted
        | .unwritten => .unwritten

/-- The position FILL_POS holds (R33). -/
def FillPos.cursor (p : FillPos) : Cursor := ⟨p.row.toNat, p.col.toNat, p.up, p.right⟩

/-- FILL_POS for a position reported, STARTED = 1 (R119). -/
def Cursor.fillPos (s : Cursor) : FillPos :=
  ⟨BitVec.ofNat 8 s.c, BitVec.ofNat 8 s.r, s.up, s.right, true⟩

/-- Where NextFree begins: Start if the cursor has not started, else one Step on (R116). -/
def FillPos.next (w : Nat) (p : FillPos) : Option Cursor :=
  if p.started then cursorStep w p.cursor else some (cursorStart w)

/-- W = Width(FRAME_VERSION) (R39, R115, R124). -/
def frameWidth (s : State) : Nat := symbolWidth s.frameVersion.toNat

/-- FILL_RESET (R118). -/
def execFillReset (s : State) : Result := succeed { s with fillPos := .zero }

/-- FILL_NEXT (R119). -/
def execFillNext (s : State) : Result :=
  if s.frameStage = .none then raiseError .notReady s
  else
    let w := frameWidth s
    match firstFree s.mem 1 (cursorPath w (pathBound w) (s.fillPos.next w)) with
    | .unwritten => .fault .unwrittenRead
    | .exhausted => raiseError .cursorExhausted s
    | .found cells => succeed { s with fillPos := (cells.map Cursor.fillPos).headD s.fillPos }

/-- The bits of a codeword, bit 7 first (R114). -/
def codewordBits (b : Byte) : List Bool :=
  [b.getLsbD 7, b.getLsbD 6, b.getLsbD 5, b.getLsbD 4,
   b.getLsbD 3, b.getLsbD 2, b.getLsbD 1, b.getLsbD 0]

/-- The placement bits: the stream's codewords, then the remainder bits, which are 0 (R114, R120). -/
def placementBits (stream : List Byte) (remainder : Nat) : List Bool :=
  stream.flatMap codewordBits ++ List.replicate remainder false

/-- DARK of the i-th cell <- the i-th bit; RESERVED of a free cell stays 0 (R120). -/
def placeBits (m : Memory) (cells : List Cursor) (bits : List Bool) : Memory :=
  (cells.zip bits).foldl (fun m p => m.write (cellAddr p.1.r p.1.c) (cellByte p.2 false)) m

/-- The cells FRAME_FILL places 8·T + R bits in: the first ones from Start (R120). -/
def fillCells (s : State) : FreeCells :=
  let w := frameWidth s
  firstFree s.mem (8 * s.spec.totalCw.toNat + s.spec.remBits.toNat)
    (cursorPath w (pathBound w) (some (cursorStart w)))

/-- FRAME_FILL (R120). -/
def execFrameFill (s : State) : Result :=
  if s.frameStage = .none ∨ s.specValid = false then raiseError .notReady s
  else if s.frameVersion ≠ s.spec.version then raiseError .notReady s
  else
    withRead (s.mem.readRange streamBase s.spec.totalCw.toNat) fun stream =>
      match fillCells s with
      | .unwritten => .fault .unwrittenRead
      | .exhausted => raiseError .cursorExhausted s
      | .found cells =>
        succeed { s with
          mem := placeBits s.mem cells (placementBits stream s.spec.remBits.toNat)
          fillPos := (cells.map Cursor.fillPos).getLastD s.fillPos
          maskCur := 0
          formatBits := 0
          frameStage := .filled }

end Sys2Proof.Machine
end

