-- ==== Sys2Proof/Machine/Mask.lean ====
section
/-! DEFINITION. The mask XOR and the format-information write (46_mask.md). -/

namespace Sys2Proof.Machine

open Sys2Proof

/-- Pred(m, r, c) (R121). -/
def maskPred (m r c : Nat) : Bool :=
  match m with
  | 0 => (r + c) % 2 == 0
  | 1 => r % 2 == 0
  | 2 => c % 3 == 0
  | 3 => (r + c) % 3 == 0
  | 4 => (r / 2 + c / 3) % 2 == 0
  | 5 => (r * c) % 2 + (r * c) % 3 == 0
  | 6 => ((r * c) % 2 + (r * c) % 3) % 2 == 0
  | _ => ((r + c) % 2 + (r * c) % 3) % 2 == 0

/-- Every cell inside W has been written, so MASK can read it (R15, R124). -/
def symbolWritten (m : Memory) (w : Nat) : Bool :=
  (List.range w).all fun r => (List.range w).all fun c => (m.read (cellAddr r c)).isSome

/-- The address is that of a cell (r, c) with r < W and c < W. -/
def inSymbol (w a : Nat) : Bool :=
  frameBase ≤ a && (a - frameBase) / 256 < w && (a - frameBase) % 256 < w

/-- A data cell inverted where flip says so; a reserved cell as it is (R122 (b), R124). -/
def flipData (flip : Bool) (b : Byte) : Byte :=
  if cellReserved b then b else cellByte (cellDark b ^^ flip) false

/-- The two loops of R124: every cell inside W through flipData. -/
def flipSymbol (m : Memory) (w : Nat) (flip : Nat → Nat → Bool) : Memory :=
  m.map fun e =>
    if inSymbol w e.1 then
      (e.1, flipData (flip ((e.1 - frameBase) / 256) ((e.1 - frameBase) % 256)) e.2)
    else e

/-- Cell of bit i in the first copy of the format word (R123). -/
def formatCell1 (i : Nat) : Nat × Nat :=
  if i ≤ 5 then (i, 8)
  else if i = 6 then (7, 8)
  else if i = 7 then (8, 8)
  else if i = 8 then (8, 7)
  else (8, 14 - i)

/-- Cell of bit i in the second copy of the format word (R123). -/
def formatCell2 (w i : Nat) : Nat × Nat :=
  if i ≤ 5 then (8, w - 1 - i)
  else if i = 6 then (8, w - 7)
  else if i = 7 then (8, w - 8)
  else if i = 8 then (w - 7, 8)
  else (w - 15 + i, 8)

/-- Bit i of the format word at its two cells, reserved (R123). -/
def writeFormatBit (w : Nat) (f : BitVec 15) (m : Memory) (i : Nat) : Memory :=
  let b := cellByte (f.getLsbD i) true
  let m1 := m.write (cellAddr (formatCell1 i).1 (formatCell1 i).2) b
  m1.write (cellAddr (formatCell2 w i).1 (formatCell2 w i).2) b

/-- The format word at its 30 cells (R123). -/
def writeFormat (m : Memory) (w : Nat) (f : BitVec 15) : Memory :=
  (List.range 15).foldl (writeFormatBit w f) m

/-- Whether R124 inverts the data cell (r, c): once to undo the mask already applied, if the frame is
masked, and once for the new mask. -/
def maskFlip (stage : FrameStage) (old new r c : Nat) : Bool :=
  ((stage == .masked) && maskPred old r c) ^^ maskPred new r c

/-- MASK (R124). -/
def execMask (m : BitVec 3) (s : State) : Result :=
  if !s.frameStage.isFilled then raiseError .notReady s
  else if !symbolWritten s.mem (frameWidth s) then .fault .unwrittenRead
  else
    let w := frameWidth s
    let f := formatWord s.spec.level.toNat m.toNat
    let flipped := flipSymbol s.mem w (maskFlip s.frameStage s.maskCur.toNat m.toNat)
    succeed { s with
      mem := writeFormat flipped w f
      formatBits := f
      maskCur := m
      frameStage := .masked }

end Sys2Proof.Machine
end

