-- ==== Sys2Proof/Machine/ReedSolomon.lean ====
section
/-! DEFINITION. GEN_POLY and RS_ENCODE (43_reed_solomon.md R102, R103). -/

namespace Sys2Proof.Machine

open Sys2Proof

/-- GEN_POLY (R102): GEN_BUF[0..N] <- g_N, GEN_DEGREE <- N. -/
def execGenPoly (n : Byte) (s : State) : Result :=
  if n = 0 then raiseError .invalidArgument s
  else
    succeed { s with
      mem := s.mem.writeRange genBase (generator n.toNat)
      genDegree := BitVec.ofNat 9 n.toNat }

/-- RS_ENCODE (R103): BLK_BUF[K..K+N-1] <- the ecc of BLK_BUF[0..K-1]. -/
def execRsEncode (k n : Byte) (s : State) : Result :=
  if !legalBlock k n then raiseError .invalidArgument s
  else
    withRead (s.mem.readRange blkBase k.toNat) fun d =>
      succeed { s with mem := s.mem.writeRange (blkBase + k.toNat) (rsEncode d n.toNat) }

end Sys2Proof.Machine
end

