-- ==== Sys2Proof/Machine/Selector.lean ====
section
/-! DEFINITION. The version selector (42_version_selector.md) and SPEC_QUERY (41_capacity_tables.md R82). -/

namespace Sys2Proof.Machine

open Sys2Proof

/-- PB(mode, n), the payload bits of n characters (R83). -/
def payloadBits (p : Config.Params) (mode : Mode) (n : Nat) : Nat :=
  match mode with
  | .numeric => 10 * (n / 3) + (match n % 3 with | 0 => 0 | 1 => 4 | _ => 7)
  | .alphanumeric => 11 * (n / 2) + 6 * (n % 2)
  | .byte => 8 * n
  | .kanji => p.kanjiBits * n

/-- LI(mode, v), the width of the length indicator (R75, R84). -/
def lengthIndicator (p : Config.Params) (mode : Mode) (v : Nat) : Nat :=
  match mode with
  | .numeric => p.liNumeric.getD (v - 1) 0
  | .alphanumeric => p.liAlphanumeric.getD (v - 1) 0
  | .byte => p.liByte.getD (v - 1) 0
  | .kanji => p.liKanji.getD (v - 1) 0

/-- What one segment adds to the sum of R84. -/
def segmentBits (p : Config.Params) (v : Nat) (g : Segment) : Nat :=
  Config.modeIndicatorBits + lengthIndicator p g.mode v + payloadBits p g.mode g.count.toNat

/-- Bits(v), the total bits of a segment list at a version (R84). -/
def totalBits (p : Config.Params) (segs : List Segment) (v : Nat) : Nat :=
  Config.terminatorBits + (segs.map (segmentBits p v)).sum

/-- The segment fits the length indicator at v: n ≤ 2^LI - 1 (R85). -/
def fitsIndicator (p : Config.Params) (v : Nat) (g : Segment) : Bool :=
  g.count.toNat ≤ 2 ^ lengthIndicator p g.mode v - 1

/-- Fits(v, l) (R86). -/
def fits (p : Config.Params) (segs : List Segment) (v l : Nat) : Bool :=
  totalBits p segs v ≤ 8 * (capacityRow v l).data && segs.all (fitsIndicator p v)

/-- The smallest version that fits, tried ascending (R87, R90). -/
def smallestVersion (p : Config.Params) (segs : List Segment) (l : Nat) : Option Nat :=
  (List.range' 1 Config.maxVersion).find? fun v => fits p segs v l

/-- The version SEL_RUN resolves: the search for VERSION = 0, else the fixed version if it fits (R90). -/
def resolveVersion (s : State) (version l : Nat) : Option Nat :=
  if version = 0 then smallestVersion s.params s.segments l
  else if fits s.params s.segments version l then some version else none

/-- SEL_CLEAR (R88). -/
def execSelClear (s : State) : Result := succeed { s with segments := [] }

/-- SEL_ADD (R89). -/
def execSelAdd (mode : BitVec 3) (count : BitVec 16) (s : State) : Result :=
  match modeOfOperand mode with
  | none => raiseError .invalidArgument s
  | some m =>
    if count = 0 then raiseError .invalidPayloadForMode s
    else if Config.maxSegments ≤ s.segments.length then raiseError .segmentListFull s
    else succeed { s with segments := s.segments ++ [⟨m, count⟩] }

/-- SEL_RUN (R90). -/
def execSelRun (version : BitVec 6) (level : BitVec 2) (s : State) : Result :=
  if !legalRunVersion version then raiseError .invalidArgument s
  else if s.segments = [] then raiseError .emptyInput s
  else
    match resolveVersion s version.toNat level.toNat with
    | none => raiseError .capacityExceeded s
    | some v =>
      succeed { s.loadSpec v level.toNat with
        reqBits := BitVec.ofNat 15 (totalBits s.params s.segments v) }

/-- SPEC_QUERY (R82). -/
def execSpecQuery (version : BitVec 6) (level : BitVec 2) (s : State) : Result :=
  if !legalQueryVersion version then raiseError .invalidArgument s
  else succeed { s.loadSpec version.toNat level.toNat with reqBits := 0 }

end Sys2Proof.Machine
end

