-- ==== Sys2Proof/Machine/Dispatch.lean ====
section
/-! DEFINITION. One arm per command (30_encoding.md R62): its meaning on the state in which the Engine
starts it. -/

namespace Sys2Proof.Machine

open Sys2Proof

def exec (i : Instr) (s : State) : Host.Outcome State Fault Refusal :=
  match i with
  | .nop => Sys2Proof.Machine.execNop s
  | .softReset => Sys2Proof.Machine.execSoftReset s
  | .selClear => Sys2Proof.Machine.execSelClear s
  | .selAdd mode count => Sys2Proof.Machine.execSelAdd mode count s
  | .selRun version level => Sys2Proof.Machine.execSelRun version level s
  | .specQuery version level => Sys2Proof.Machine.execSpecQuery version level s
  | .genPoly n => Sys2Proof.Machine.execGenPoly n s
  | .rsEncode k n => Sys2Proof.Machine.execRsEncode k n s
  | .assemble => Sys2Proof.Machine.execAssemble s
  | .cwReset => Sys2Proof.Machine.execCwReset s
  | .cwNext => Sys2Proof.Machine.execCwNext s
  | .frameInit => Sys2Proof.Machine.execFrameInit s
  | .fillReset => Sys2Proof.Machine.execFillReset s
  | .fillNext => Sys2Proof.Machine.execFillNext s
  | .frameFill => Sys2Proof.Machine.execFrameFill s
  | .mask m => Sys2Proof.Machine.execMask m s

end Sys2Proof.Machine
end

