-- ==== Sys2Proof/Machine/Port.lean ====
section
/-! DEFINITION. The Host port (20_memory.md R42 to R48): what a Host access does while BUSY = 0, and the
reads that are allowed while BUSY = 1 (70_reset_and_hazards.md R139). -/

namespace Sys2Proof.Machine

open Sys2Proof

/-- The value returned to the Host. -/
def State.reply (s : State) (v : Word) : State := { s with replies := v :: s.replies }

/-- A Host write of w to CMD while BUSY = 0 (R23): w is stored, BUSY <- 1. How many Host reads come
before the completion is drawn here (R143; log entry 3). -/
def State.issue (s : State) (w : Word) : State :=
  { s with cmd := w, busy := true, busyLeft := Config.latency s.draws, draws := s.draws + 1 }

/-- A Host write to a register: CMD and STATUS have an effect, no other register has (R22, R48). -/
def writeReg (r : Option Reg) (v : Word) (s : State) : State :=
  match r with
  | some .cmd => s.issue v
  | some .status => writeStatus s v
  | _ => s

/-- `lw addr` (R44): an aligned register or SEG_TABLE entry, else a bus error. -/
def hostLoadWord (addr : Word) (s : State) : Result :=
  if addr.toNat % 4 ≠ 0 then .fault .busError
  else
    match regionOf addr.toNat with
    | some (.reg off) => .next (s.reply (readOffset s off))
    | some (.segTable i) => .next (s.reply (segTableWord s i))
    | _ => .fault .busError

/-- The byte a Host read returns where the storage is written, and a free draw where it is not; keep is
the part of the byte that the address has (R38, R40; log entry 2). -/
def hostLoadStored (addr : Nat) (keep : Byte) (s : State) : State :=
  match s.mem.read addr with
  | some b => s.reply ((b &&& keep).setWidth 32)
  | none => { s.reply ((Config.freeByte s.draws &&& keep).setWidth 32) with draws := s.draws + 1 }

/-- The bits a frame cell has: 7:2 read 0 and ignore writes (R40). -/
def cellBits : Byte := 0x03

/-- `lb addr` (R44): a byte of a buffer, a table or the frame, else a bus error. -/
def hostLoadByte (addr : Word) (s : State) : Result :=
  match regionOf addr.toNat with
  | some .buffer => .next (hostLoadStored addr.toNat 0xFF s)
  | some .genBuf => .next (hostLoadStored addr.toNat 0xFF s)
  | some (.gfExp i) => .next (s.reply ((gfExp i).setWidth 32))
  | some (.gfLog i) => .next (s.reply ((gfLog i).setWidth 32))
  | some (.frame _ _) => .next (hostLoadStored addr.toNat cellBits s)
  | _ => .fault .busError

/-- `sw addr, v` (R44): a write to SEG_TABLE has no effect (R46). -/
def hostStoreWord (addr v : Word) (s : State) : Result :=
  if addr.toNat % 4 ≠ 0 then .fault .busError
  else
    match regionOf addr.toNat with
    | some (.reg off) => .next (writeReg (Reg.ofOffset off) v s)
    | some (.segTable _) => .next s
    | _ => .fault .busError

/-- `sb addr, v` (R44): a write to GEN_BUF, GF_EXP or GF_LOG has no effect (R46). -/
def hostStoreByte (addr : Word) (v : Byte) (s : State) : Result :=
  match regionOf addr.toNat with
  | some .buffer => .next { s with mem := s.mem.write addr.toNat v }
  | some .genBuf => .next s
  | some (.gfExp _) => .next s
  | some (.gfLog _) => .next s
  | some (.frame _ _) => .next { s with mem := s.mem.write addr.toNat (v &&& cellBits) }
  | _ => .fault .busError

/-- One Host access while BUSY = 0. A wait reads BUSY = 0 and is over (R67). -/
def hostAccess (a : HostAction) (s : State) : Result :=
  match a with
  | .lw addr => hostLoadWord addr s
  | .lb addr => hostLoadByte addr s
  | .sw addr v => hostStoreWord addr v s
  | .sb addr v => hostStoreByte addr v s
  | .wait => .next s

/-- The Host reads STATUS or ERRCODE, all it may do while BUSY = 1 (R139). -/
def allowedWhileBusy (a : HostAction) : Bool :=
  match a with
  | .lw addr => addr.toNat == Reg.status.offset || addr.toNat == Reg.errcode.offset
  | .wait => true
  | .lb _ | .sw _ _ | .sb _ _ => false

/-- An allowed read served while BUSY = 1, rest being the accesses behind it: lw returns the register as
it stands; wait reads BUSY = 1 and repeats (R67). Only the model's own fields change (R48). -/
def busyRead (a : HostAction) (rest : List HostAction) (s : State) : State :=
  match a with
  | .lw addr =>
    { s.reply (readOffset s addr.toNat) with busyLeft := s.busyLeft - 1, port := rest }
  | .wait | .lb _ | .sw _ _ | .sb _ _ => { s with busyLeft := s.busyLeft - 1 }

end Sys2Proof.Machine
end

