-- ==== Sys2Proof/Machine/Engine.lean ====
section
/-! DEFINITION. The Engine's step, the Host's step, and which of the two agents moves (00_scope.md R3;
20_memory.md R51; 70_reset_and_hazards.md R139, R143). -/

namespace Sys2Proof.Machine

open Sys2Proof

/-- The Engine executes the word in CMD as one indivisible step (R51, R63). -/
def engineStep (s : State) : Result :=
  match decode s.cmd with
  | .ok i => exec i s
  | .error _ => illegalCommand s

/-- A step while BUSY = 1. An access that R139 forbids is a hazard as soon as it is presented (log entry
4). An allowed read is served before the completion as long as the draw of R143 says so; otherwise the
Engine completes its command. -/
def busyStep (s : State) : Result :=
  match s.port with
  | [] => engineStep s
  | a :: rest =>
    if !allowedWhileBusy a then .fault .busyHazard
    else if s.busyLeft = 0 then engineStep s
    else .next (busyRead a rest s)

/-- A step while BUSY = 0: the Host access presented now, or nothing (log entry 6). -/
def idleStep (s : State) : Result :=
  match s.port with
  | [] => .next s
  | a :: rest => hostAccess a { s with port := rest }

/-- A step of the machine. -/
def machineStep (s : State) : Result := if s.busy then busyStep s else idleStep s

/-- The state right after the Host has written w to CMD, the Host presenting no further access: the next
step runs w (R23; log entries 7 and 25). -/
def State.withCommand (s : State) (w : Word) : State :=
  { s with cmd := w, busy := true, busyLeft := 0, port := [] }

end Sys2Proof.Machine
end

