-- ==== Sys2Proof/Machine/Script.lean ====
section
/-! DEFINITION. The pseudo-instructions of R67 as the Host accesses they expand to. -/

namespace Sys2Proof.Machine

open Sys2Proof

/-- `do X`: the write of enc(X) to CMD, then wait. -/
def scriptDo (i : Instr) : List HostAction := [.sw 0x000 (encode i), .wait]

/-- `check OK`: the read of ERRCODE whose value the Host compares with 0. -/
def scriptCheck : List HostAction := [.lw 0x008]

/-- `load BUF, b0 b1 …` for the buffer at a base address. -/
def scriptLoad (base : Nat) : List Byte → List HostAction
  | [] => []
  | b :: bs => .sb (BitVec.ofNat 32 base) b :: scriptLoad (base + 1) bs

/-- `symbol M`. -/
def scriptSymbol (m : BitVec 3) : List HostAction :=
  scriptDo .assemble ++ scriptDo .frameInit ++ scriptDo .frameFill ++ scriptDo (.mask m)

/-- `select VERSION, LEVEL, (MODE, COUNT)…`. -/
def scriptSelect (version : BitVec 6) (level : BitVec 2) (segs : List (BitVec 3 × BitVec 16)) :
    List HostAction :=
  scriptDo .selClear ++ (segs.flatMap fun g => scriptDo (.selAdd g.1 g.2))
    ++ scriptDo (.selRun version level)

end Sys2Proof.Machine
end

