-- ==== Sys2Proof/Machine/Step.lean ====
section
/-! DEFINITION. One step of the machine, and a command placed where the next step takes it. -/

namespace Sys2Proof.Machine

open Sys2Proof

/-- One step: the Host's next access, a busy read, or the Engine's command. -/
def step (s : State) : Host.Outcome State Fault Refusal := machineStep s

/-- s with the command word w (nbits bits) in CMD and BUSY = 1: the block has no program counter and no
fetch (R20, R54); the word in CMD is what the Engine runs next. -/
def State.withFetchWord (s : State) (nbits w : Nat) : State := s.withCommand (tableWord nbits w)

end Sys2Proof.Machine
end

