-- ==== Sys2Proof/WellFormed.lean ====
section
/-! DEFINITION. Which commands carry legal operands. The types of Instr already keep every operand
inside its field, so every term is encodable; what is left to check is what R58 calls each command's own
rule of legal values: the causes of InvalidArgument in 60_exceptions.md R125. A command that fails the
check is still executed: it ends with InvalidArgument. -/

namespace Sys2Proof

/-- The operand values are legal (R59, R61, R82, R89, R90, R102, R103; R125 code 1). -/
def Instr.wellFormed : Instr → Bool
  | .selAdd mode _ => mode.toNat < 4
  | .selRun version _ => version.toNat ≤ Config.maxVersion
  | .specQuery version _ => 1 ≤ version.toNat && version.toNat ≤ Config.maxVersion
  | .genPoly n => 1 ≤ n.toNat
  | .rsEncode k n => 1 ≤ n.toNat && k.toNat + n.toNat ≤ Config.codeLength
  | .nop | .softReset | .selClear | .assemble | .cwReset | .cwNext | .frameInit
  | .fillReset | .fillNext | .frameFill | .mask _ => true

end Sys2Proof
end

