-- ==== Sys2Proof/Safety.lean ====
section
/-! DEFINITION. The terms the claims use: what an instruction keeps, the legal states a run can reach, and
what it is for a run to be safe. -/

namespace Sys2Proof.Machine

open Sys2Proof

/-! ### Frames -/

/-- Every register but those listed reads as before, as the Host reads it (R21). -/
def regsKept (changed : List Reg) (s t : State) : Prop :=
  ∀ r : Reg, r ∉ changed → r.read t = r.read s

/-- The STATUS flags that say what the block holds, SPEC_VALID and FRAME_STAGE, are as before. -/
def stagesKept (s t : State) : Prop := t.specValid = s.specValid ∧ t.frameStage = s.frameStage

/-- Every SEG_TABLE entry is as before, and so is their number. -/
def segsKept (s t : State) : Prop := t.segments = s.segments

/-- Every byte of memory for which changed does not hold reads as before, an unwritten one still as
unwritten. -/
def bytesKeptBut (changed : Nat → Prop) (s t : State) : Prop :=
  ∀ a, ¬ changed a → t.mem.read a = s.mem.read a

/-- Every byte of memory reads as before. -/
def bytesKept (s t : State) : Prop := ∀ a, t.mem.read a = s.mem.read a

/-- The Host's side of the port, the count of free values drawn and the parameters are as before. -/
def hostSideKept (s t : State) : Prop :=
  t.port = s.port ∧ t.replies = s.replies ∧ t.draws = s.draws ∧ t.params = s.params

/-- The success completion (R126): ERRCODE 0, BUSY 0, ERR as before. -/
def completedFrom (s t : State) : Prop :=
  t.errcode = 0#4 ∧ t.busy = false ∧ t.err = s.err

/-- The addresses of n bytes from a base on. -/
def within (base n a : Nat) : Prop := base ≤ a ∧ a < base + n

/-- The spec result registers, written by SpecLoad alone (R30). -/
def specRegList : List Reg :=
  [.versionRes, .levelRes, .width, .totalCw, .dataCw, .eccCw, .remBits, .g1Count, .g2Count, .g1Data,
   .g2Data, .eccPerBlock]

/-- The spec result registers hold the EC Spec of (v, l), each value whole (R70, R71, R73, R81). -/
def specLoaded (v l : Nat) (t : State) : Prop :=
  t.specValid = true ∧
  t.spec.version.toNat = v ∧ t.spec.level.toNat = l ∧ t.spec.width.toNat = 17 + 4 * v ∧
  t.spec.totalCw.toNat = (capacityRow v l).total ∧ t.spec.dataCw.toNat = (capacityRow v l).data ∧
  t.spec.eccCw.toNat = (capacityRow v l).ecc ∧ t.spec.remBits.toNat = remainderBits v ∧
  t.spec.g1Count.toNat = (capacityRow v l).g1 ∧ t.spec.g1Data.toNat = (capacityRow v l).d1 ∧
  t.spec.g2Count.toNat = (capacityRow v l).g2 ∧ t.spec.g2Data.toNat = (capacityRow v l).d2 ∧
  t.spec.eccPerBlock.toNat = (capacityRow v l).eccPerBlock

/-- Fits(v, l) in the words of R85 and R86. -/
def listFits (p : Config.Params) (segs : List Segment) (v l : Nat) : Prop :=
  totalBits p segs v ≤ 8 * (capacityRow v l).data ∧
    ∀ g ∈ segs, g.count.toNat ≤ 2 ^ lengthIndicator p g.mode v - 1

/-- v is the version SEL_RUN resolves VERSION to: VERSION itself if it fits, and for 0 the smallest of
1..40 that fits (R90). -/
def resolvesTo (s : State) (version l v : Nat) : Prop :=
  if version = 0 then
    1 ≤ v ∧ v ≤ 40 ∧ listFits s.params s.segments v l ∧
      ∀ u, 1 ≤ u → u < v → ¬ listFits s.params s.segments u l
  else v = version ∧ listFits s.params s.segments v l

/-! ### Command words -/

/-- The word w is the command i of the opcode op, and the Engine ends every word of that opcode with a
reserved bit of its format set with IllegalCommand (R57, R63). -/
def encodedAs (w : Word) (op : Opcode) (i : Instr) : Prop :=
  decode w = .ok i ∧
    ∀ (x : Word) (s : State), x.extractLsb' 24 8 = op.code → x &&& op.format.reservedMask ≠ 0#32 →
      s.cmd = x → engineStep s = .next (s.fail .illegalCommand)

/-! ### Polynomials over GF(2^8) -/

/-- The value at x of the polynomial with these coefficients, the first the highest (R98). -/
def polyEval (cs : List Byte) (x : Byte) : Byte := cs.foldl (fun acc c => gfMul acc x ^^^ c) 0

/-- The product of two polynomials over GF(2) given as numbers, before any reduction: the sum over the
set bits i of b, below the bound, of a shifted left by i (R91). -/
def carrylessProduct : (bits : Nat) → (a b : Nat) → Nat
  | 0, _, _ => 0
  | k + 1, a, b => carrylessProduct k a b ^^^ (if b.testBit k then a <<< k else 0)

/-- Codeword by codeword exclusive or (R101 (b)). -/
def xorLists (a b : List Byte) : List Byte := List.zipWith (fun x y => x ^^^ y) a b

/-! ### Codes, reads and accesses -/

/-- The error codes a command can end with, IllegalCommand apart: the column "raised by" of R125. -/
def mayRaise : Instr → List ErrCode
  | .selAdd _ _ => [.invalidArgument, .invalidPayloadForMode, .segmentListFull]
  | .selRun _ _ => [.invalidArgument, .emptyInput, .capacityExceeded]
  | .specQuery _ _ | .genPoly _ | .rsEncode _ _ => [.invalidArgument]
  | .assemble | .frameInit | .mask _ => [.notReady]
  | .cwNext | .fillNext | .frameFill => [.notReady, .cursorExhausted]
  | .nop | .softReset | .selClear | .cwReset | .fillReset => []

/-- The commands that read a buffer or the frame, and so can meet an unwritten byte (R15). -/
def readsStorage : Instr → Bool
  | .rsEncode _ _ | .assemble | .cwNext | .fillNext | .frameFill | .mask _ => true
  | .nop | .softReset | .selClear | .selAdd _ _ | .selRun _ _ | .specQuery _ _ | .genPoly _
  | .cwReset | .frameInit | .fillReset => false

/-- The Host accesses that the address map allows, by width and alignment (R43, R44). -/
def mapsTo : HostAction → Prop
  | .lw addr | .sw addr _ =>
    addr.toNat % 4 = 0 ∧ (addr.toNat ≤ 0xFF ∨ (0x3400 ≤ addr.toNat ∧ addr.toNat ≤ 0x37FF))
  | .lb addr | .sb addr _ =>
    (0x1000 ≤ addr.toNat ∧ addr.toNat ≤ 0x1FFF) ∨ (0x2000 ≤ addr.toNat ∧ addr.toNat ≤ 0x2FFF) ∨
    (0x3000 ≤ addr.toNat ∧ addr.toNat ≤ 0x33FF) ∨ (0x4000 ≤ addr.toNat ∧ addr.toNat ≤ 0x4FFF) ∨
    (0x10000 ≤ addr.toNat ∧ addr.toNat ≤ 0x1B0FF ∧ (addr.toNat - 0x10000) % 256 ≤ 176)
  | .wait => True

/-- The state in which the Engine executes i when the Host does `do i` on the idle block s, rest being
what the Host does after it (R23, R67). -/
def startedBy (i : Instr) (rest : List HostAction) (s : State) : State :=
  { s with
    cmd := encode i
    busy := true
    busyLeft := 0
    draws := s.draws + 1
    port := .wait :: rest }

/-! ### Cells of the frame -/

/-- The address is one of the 30 format cells of R123. -/
def isFormatCell (w a : Nat) : Prop :=
  ∃ i < 15, a = cellAddr (formatCell1 i).1 (formatCell1 i).2 ∨
    a = cellAddr (formatCell2 w i).1 (formatCell2 w i).2

/-- The address is that of a cell of the frame store's 177 rows. -/
def inFrame (a : Nat) : Prop := frameBase ≤ a ∧ a < frameEnd

/-- Every cell of the 177 × 177 has been written. -/
def frameWritten (m : Memory) : Prop := ∀ r < 177, ∀ c < 177, (m.read (cellAddr r c)).isSome

/-- The cell under a cursor has been written and is free. -/
def freeAt (m : Memory) (s : Cursor) : Prop :=
  ∃ b, m.read (cellAddr s.r s.c) = some b ∧ cellReserved b = false

/-- The cell under a cursor has been written and is reserved. -/
def reservedAt (m : Memory) (s : Cursor) : Prop :=
  ∃ b, m.read (cellAddr s.r s.c) = some b ∧ cellReserved b = true

/-- The cell under a cursor is free, as a test. -/
def isFree (m : Memory) (s : Cursor) : Bool :=
  match m.read (cellAddr s.r s.c) with
  | some b => !cellReserved b
  | none => false

/-- The raw traversal of a symbol of width w (R115). -/
def zigzag (w : Nat) : List Cursor := cursorPath w (pathBound w) (some (cursorStart w))

/-- The positions the filler still has before it (R116). -/
def fillerPath (s : State) : List Cursor :=
  cursorPath (frameWidth s) (pathBound (frameWidth s)) (s.fillPos.next (frameWidth s))

/-- The position is one of the traversal's: its column pair is (W-1, W-2), …, (8, 7), (5, 4), (3, 2) or
(1, 0), and right says which column of the pair it is (R115). -/
def onTraversal (w : Nat) (s : Cursor) : Prop :=
  s.r < w ∧ s.c < w ∧
    if s.right then (8 ≤ s.c ∧ s.c % 2 = 0) ∨ (s.c ≤ 5 ∧ s.c % 2 = 1)
    else (7 ≤ s.c ∧ s.c % 2 = 1) ∨ (s.c ≤ 4 ∧ s.c % 2 = 0)

/-- How many cells inside W are free in the skeleton of version v (R113). -/
def freeCount (v : Nat) : Nat :=
  let w := symbolWidth v
  let pairs := alignmentPairs v
  ((List.range w).map fun r =>
    ((List.range w).filter fun c => !cellReserved (skeletonByte v w pairs r c)).length).sum

/-- How many cells inside W are reserved in the skeleton of version v (R113). -/
def reservedCount (v : Nat) : Nat :=
  let w := symbolWidth v
  let pairs := alignmentPairs v
  ((List.range w).map fun r =>
    ((List.range w).filter fun c => cellReserved (skeletonByte v w pairs r c)).length).sum

/-! ### Legal states -/

/-- The storage is in canonical form, holds mapped bytes only, and a frame cell has no bits 7:2 (R37,
R39, R40). -/
def storageOk (s : State) : Prop :=
  s.mem.wf ∧ (∀ e ∈ s.mem, isStorage e.1 = true) ∧ ∀ e ∈ s.mem, frameBase ≤ e.1 → e.2.toNat < 4

/-- The spec result registers hold the EC Spec of a legal pair when SPEC_VALID = 1, and 0 otherwise
(R26, R30). -/
def specOk (s : State) : Prop :=
  (s.specValid = false → s.spec = .zero) ∧
    (s.specValid = true → ∃ v l, 1 ≤ v ∧ v ≤ 40 ∧ l < 4 ∧ s.spec = SpecRegs.of v l)

/-- SEG_TABLE has at most 256 entries, none with COUNT 0 (R29, R89). -/
def segsOk (s : State) : Prop :=
  s.segments.length ≤ 256 ∧ ∀ g ∈ s.segments, g.count ≠ 0#16

/-- ERRCODE holds a code that some command produces: neither 4 nor 10..15 (R125). -/
def errcodeOk (s : State) : Prop :=
  s.errcode.toNat ∈ [0, 1, 2, 3, 5, 6, 7, 8, 9]

/-- GEN_BUF holds the generator polynomial that GEN_DEGREE announces (R35). -/
def generatorOk (s : State) : Prop :=
  s.genDegree.toNat ≤ 255 ∧
    (s.genDegree ≠ 0#9 →
      s.mem.readRange genBase (s.genDegree.toNat + 1) = some (generator s.genDegree.toNat))

/-- The frame registers agree with FRAME_STAGE, and past NONE the frame store is written whole (R27, R32,
R117, R124). -/
def frameOk (s : State) : Prop :=
  (s.frameStage = .none → s.frameVersion = 0#6 ∧ s.versionBits = 0#18 ∧ s.fillPos = .zero) ∧
  (s.frameStage ≠ .none → s.specValid = true ∧ 1 ≤ s.frameVersion.toNat ∧
    s.frameVersion.toNat ≤ 40 ∧ s.versionBits = versionBitsOf s.frameVersion.toNat ∧
    frameWritten s.mem) ∧
  (s.frameStage ≠ .masked → s.maskCur = 0#3 ∧ s.formatBits = 0#15)

/-- FILL_POS reads 0 before the cursor has started, and a position of the traversal after (R33). -/
def fillPosOk (s : State) : Prop :=
  (s.fillPos.started = false → s.fillPos = .zero) ∧
    (s.fillPos.started = true → onTraversal (frameWidth s) s.fillPos.cursor)

/-- REQ_BITS and CW_INDEX stay inside the ranges R21 and R31 give them. -/
def rangesOk (s : State) : Prop := s.reqBits.toNat ≤ 23648 ∧ s.cwIndex.toNat ≤ 3706

/-- The states the block can be in. -/
def legal (s : State) : Prop :=
  storageOk s ∧ specOk s ∧ segsOk s ∧ errcodeOk s ∧ generatorOk s ∧ frameOk s ∧ fillPosOk s ∧
    rangesOk s

/-! ### Safe runs -/

/-- A run of k steps meets no model fault and no refusal (R130). -/
def safeFor (k : Nat) (s : State) : Prop := ∃ t, Host.Core.run Sys2Proof.core k s = .next t

end Sys2Proof.Machine
end

