-- ==== Sys2Proof/Certificates/Slice0/Obligations.lean ====
section
/-! DEFINITION. The statements for the provers. Each docstring names the rule or section of spec/ it
formalises. -/

open Sys2Proof Sys2Proof.Machine

/-! ### Reset and the control commands -/

/-- R136: after reset every register reads 0, every SEG_TABLE entry reads 0, no byte of storage is
written, and the tables GF_EXP and GF_LOG hold their values from the first access. -/
def Obligations.ResetClearsEveryRegister : Prop :=
  (∀ r : Reg, r.read State.reset = 0#32) ∧ (∀ i, segTableWord State.reset i = 0#32) ∧
  (∀ a, State.reset.mem.read a = none) ∧
  ∀ i < 256,
    hostLoadByte (BitVec.ofNat 32 (gfExpBase + i)) State.reset =
      .next (State.reset.reply ((gfExp i).setWidth 32)) ∧
    hostLoadByte (BitVec.ofNat 32 (gfLogBase + i)) State.reset =
      .next (State.reset.reply ((gfLog i).setWidth 32))

/-- R68: NOP does nothing but complete; ERR stays. Its word is CMD's reset value. -/
def Obligations.NopOnlyCompletes : Prop :=
  State.reset.cmd = 0x00000000#32 ∧ encodedAs 0x00000000#32 .nop .nop ∧
  ∀ s, ∃ t, exec .nop s = .next t ∧ completedFrom s t ∧ stagesKept s t ∧ segsKept s t ∧
    regsKept [.status, .errcode] s t ∧ bytesKept s t ∧ hostSideKept s t

/-- R69: SOFT_RESET returns every register to 0 and keeps buffers and frame with their written marks; a
later MASK ends in NotReady. -/
def Obligations.SoftResetClearsRegistersKeepsStorage : Prop :=
  encodedAs 0x01000000#32 .softReset .softReset ∧
  ∀ s, ∃ t, exec .softReset s = .next t ∧ (∀ r : Reg, r.read t = 0#32) ∧
    (∀ i, segTableWord t i = 0#32) ∧ bytesKept s t ∧ hostSideKept s t ∧
    ∀ m, exec (.mask m) t = .next (t.fail .notReady)

/-! ### The version selector and the tables -/

/-- R88: SEL_CLEAR empties the list, and every entry reads 0. -/
def Obligations.SelClearEmptiesSegmentList : Prop :=
  encodedAs 0x10000000#32 .selClear .selClear ∧
  ∀ s, ∃ t, exec .selClear s = .next t ∧ completedFrom s t ∧ stagesKept s t ∧
    Reg.segcount.read t = 0#32 ∧ (∀ i, segTableWord t i = 0#32) ∧
    regsKept [.status, .errcode, .segcount] s t ∧ bytesKept s t ∧ hostSideKept s t

/-- R89: SEL_ADD appends MODE ‖ COUNT as entry SEGCOUNT; its errors come in their order and leave the list
as it is. -/
def Obligations.SelAddAppendsSegment : Prop :=
  ∀ (mode : BitVec 3) (count : BitVec 16) (s : State),
    encodedAs (0x11#8 ++ 0#5 ++ mode ++ count) .selAdd (.selAdd mode count) ∧
    (mode.toNat < 4 → count ≠ 0#16 → s.segments.length < 256 →
      ∃ t, exec (.selAdd mode count) s = .next t ∧ completedFrom s t ∧ stagesKept s t ∧
        (segCount t).toNat = s.segments.length + 1 ∧
        segTableWord t s.segments.length = 0#13 ++ mode ++ count ∧
        (∀ i, i ≠ s.segments.length → segTableWord t i = segTableWord s i) ∧
        regsKept [.status, .errcode, .segcount] s t ∧ bytesKept s t ∧ hostSideKept s t) ∧
    (4 ≤ mode.toNat → exec (.selAdd mode count) s = .next (s.fail .invalidArgument)) ∧
    (mode.toNat < 4 → count = 0#16 →
      exec (.selAdd mode count) s = .next (s.fail .invalidPayloadForMode)) ∧
    (mode.toNat < 4 → count ≠ 0#16 → 256 ≤ s.segments.length →
      exec (.selAdd mode count) s = .next (s.fail .segmentListFull))

/-- R90 with R83 to R86 and R75: SEL_RUN resolves the version, loads its EC Spec and reports Bits(v) whole
in REQ_BITS; its errors come in their order and change nothing else. Bits(v) is the sum written out, the
terminator and for each segment the mode indicator, the length indicator and the payload of its mode; the
default widths of the length indicators and the default bits of a Kanji character are those of R75 and R8. -/
def Obligations.SelRunResolvesVersion : Prop :=
  (∀ (p : Config.Params) (v : Nat), totalBits p [] v = 4 ∧
    ∀ (g : Segment) (segs : List Segment), totalBits p (g :: segs) v =
      totalBits p segs v + (4 + lengthIndicator p g.mode v +
        match g.mode with
        | .numeric => 10 * (g.count.toNat / 3) +
            (if g.count.toNat % 3 = 0 then 0 else if g.count.toNat % 3 = 1 then 4 else 7)
        | .alphanumeric => 11 * (g.count.toNat / 2) + 6 * (g.count.toNat % 2)
        | .byte => 8 * g.count.toNat
        | .kanji => p.kanjiBits * g.count.toNat)) ∧
  (∀ v, 1 ≤ v → v ≤ 40 → ∀ mode, lengthIndicator defaultParams mode v =
    match mode with
    | .numeric => if v ≤ 9 then 10 else if v ≤ 26 then 12 else 14
    | .alphanumeric => if v ≤ 9 then 9 else if v ≤ 26 then 11 else 13
    | .byte => if v ≤ 9 then 8 else 16
    | .kanji => if v ≤ 9 then 8 else if v ≤ 26 then 10 else 12) ∧
  defaultParams.kanjiBits = 16 ∧
  ∀ (version : BitVec 6) (level : BitVec 2) (s : State),
    encodedAs (0x12#8 ++ 0#10 ++ version ++ 0#6 ++ level) .selRun (.selRun version level) ∧
    (∀ v, version.toNat ≤ 40 → s.segments ≠ [] → resolvesTo s version.toNat level.toNat v →
      ∃ t, exec (.selRun version level) s = .next t ∧ completedFrom s t ∧
        specLoaded v level.toNat t ∧ t.reqBits.toNat = totalBits s.params s.segments v ∧
        t.frameStage = s.frameStage ∧ segsKept s t ∧
        regsKept ([.status, .errcode, .reqBits] ++ specRegList) s t ∧ bytesKept s t ∧
        hostSideKept s t) ∧
    (40 < version.toNat → exec (.selRun version level) s = .next (s.fail .invalidArgument)) ∧
    (version.toNat ≤ 40 → s.segments = [] →
      exec (.selRun version level) s = .next (s.fail .emptyInput)) ∧
    (version.toNat ≤ 40 → s.segments ≠ [] → (∀ v, ¬ resolvesTo s version.toNat level.toNat v) →
      exec (.selRun version level) s = .next (s.fail .capacityExceeded))

/-- R87: Fits is not monotone. Eighty Byte segments of one character fit at version 9, level L, and not at
version 10, with the default parameters. -/
def Obligations.FitsIsNotMonotone : Prop :=
  listFits defaultParams (List.replicate 80 ⟨.byte, 1⟩) 9 0 ∧
  ¬ listFits defaultParams (List.replicate 80 ⟨.byte, 1⟩) 10 0

/-- R82 with R81: SPEC_QUERY loads the row of R71 whole and writes REQ_BITS 0. -/
def Obligations.SpecQueryLoadsSpec : Prop :=
  ∀ (version : BitVec 6) (level : BitVec 2) (s : State),
    encodedAs (0x13#8 ++ 0#10 ++ version ++ 0#6 ++ level) .specQuery (.specQuery version level) ∧
    (1 ≤ version.toNat → version.toNat ≤ 40 →
      ∃ t, exec (.specQuery version level) s = .next t ∧ completedFrom s t ∧
        specLoaded version.toNat level.toNat t ∧ Reg.reqBits.read t = 0#32 ∧
        t.frameStage = s.frameStage ∧ segsKept s t ∧
        regsKept ([.status, .errcode, .reqBits] ++ specRegList) s t ∧ bytesKept s t ∧
        hostSideKept s t) ∧
    (version.toNat = 0 ∨ 40 < version.toNat →
      exec (.specQuery version level) s = .next (s.fail .invalidArgument))

/-- R72: the laws of the 160 rows. -/
def Obligations.CapacityRowsAddUp : Prop :=
  ∀ v, 1 ≤ v → v ≤ 40 → ∀ l < 4,
    let x := capacityRow v l
    x.data = x.g1 * x.d1 + x.g2 * x.d2 ∧ x.ecc = (x.g1 + x.g2) * x.eccPerBlock ∧
    x.total = x.data + x.ecc ∧ 1 ≤ x.g1 ∧ (0 < x.g2 → x.d2 = x.d1 + 1) ∧
    x.d1 + x.eccPerBlock ≤ 255 ∧ x.d2 + x.eccPerBlock ≤ 255 ∧
    x.eccPerBlock ∈ [7, 10, 13, 15, 16, 17, 18, 20, 22, 24, 26, 28, 30] ∧
    x.total ≤ 3706 ∧ (x.total = 3706 ↔ v = 40)

/-- R78 and R80: the 32 format words and the 34 version words. -/
def Obligations.FormatAndVersionWords : Prop :=
  (List.range 4).map (fun l => (List.range 8).map fun m => (formatWord l m).toNat) =
    [[0x77C4, 0x72F3, 0x7DAA, 0x789D, 0x662F, 0x6318, 0x6C41, 0x6976],
     [0x5412, 0x5125, 0x5E7C, 0x5B4B, 0x45F9, 0x40CE, 0x4F97, 0x4AA0],
     [0x355F, 0x3068, 0x3F31, 0x3A06, 0x24B4, 0x2183, 0x2EDA, 0x2BED],
     [0x1689, 0x13BE, 0x1CE7, 0x19D0, 0x0762, 0x0255, 0x0D0C, 0x083B]] ∧
  (List.range' 7 34).map (fun v => (versionWord v).toNat) =
    [0x07C94, 0x085BC, 0x09A99, 0x0A4D3, 0x0BBF6, 0x0C762, 0x0D847, 0x0E60D, 0x0F928, 0x10B78,
     0x1145D, 0x12A17, 0x13532, 0x149A6, 0x15683, 0x168C9, 0x177EC, 0x18EC4, 0x191E1, 0x1AFAB,
     0x1B08E, 0x1CC1A, 0x1D33F, 0x1ED75, 0x1F250, 0x209D5, 0x216F0, 0x228BA, 0x2379F, 0x24B0B,
     0x2542E, 0x26A64, 0x27541, 0x28C69]

/-! ### The field and the Reed-Solomon engine -/

/-- R93 and R94: GF_EXP lists the powers of α by repeated doubling, which come back to 1 after 255 steps,
GF_LOG is its inverse, and the two entries of zero are the sentinels. -/
def Obligations.GfTablesListPowersOfAlpha : Prop :=
  gfExp 0 = 0x01#8 ∧ (∀ i < 254, gfExp (i + 1) = gfDouble (gfExp i)) ∧
  gfDouble (gfExp 254) = 0x01#8 ∧ gfExp 255 = 0x00#8 ∧ gfLog 0 = 0xFF#8 ∧
  ∀ x, 1 ≤ x → x < 256 → (gfLog x).toNat ≤ 254 ∧ gfExp (gfLog x).toNat = BitVec.ofNat 8 x

/-- R95 with R91: ⊗ is 0 for a zero operand and else the sum of logarithms read back; it equals the product
of polynomials over GF(2) reduced modulo 0x11D; it is commutative and associative, 0x01 is its unit, and it
distributes over ⊕. -/
def Obligations.GfMulIsReducedPolynomialProduct : Prop :=
  (∀ a b : Byte, gfMul a b =
    if a = 0x00#8 ∨ b = 0x00#8 then 0x00#8
    else gfExp (((gfLog a.toNat).toNat + (gfLog b.toNat).toNat) % 255)) ∧
  (∀ a b : Byte, gfMul a b =
    BitVec.ofNat 8 (polyRemainder 0x11D 8 7 (carrylessProduct 8 a.toNat b.toNat))) ∧
  (∀ a b : Byte, gfMul a b = gfMul b a) ∧
  (∀ a b c : Byte, gfMul (gfMul a b) c = gfMul a (gfMul b c)) ∧
  (∀ a : Byte, gfMul 0x01#8 a = a) ∧
  ∀ a b c : Byte, gfMul a (b ^^^ c) = gfMul a b ^^^ gfMul a c

/-- R96: the generator of degree n has n + 1 coefficients, is monic, and has the roots α^0 … α^(n-1). -/
def Obligations.GeneratorHasItsRoots : Prop :=
  ∀ n, 1 ≤ n → n ≤ 255 →
    (generator n).length = n + 1 ∧ (generator n)[n]? = some 0x01#8 ∧
    ∀ i < n, polyEval (generator n).reverse (gfExp i) = 0x00#8

/-- R102: GEN_POLY writes G[0..N] into GEN_BUF and N into GEN_DEGREE. N = 1 gives x ⊕ 1 and N = 255 gives
x^255 ⊕ 1. -/
def Obligations.GenPolyWritesGenerator : Prop :=
  generator 1 = [0x01#8, 0x01#8] ∧
  generator 255 = 0x01#8 :: (List.replicate 254 0x00#8 ++ [0x01#8]) ∧
  ∀ (n : Byte) (s : State),
    encodedAs (0x20#8 ++ 0#16 ++ n) .genPoly (.genPoly n) ∧
    (n ≠ 0#8 → ∃ t, exec (.genPoly n) s = .next t ∧ completedFrom s t ∧ stagesKept s t ∧
      (∀ j ≤ n.toNat, t.mem.read (genBase + j) = (generator n.toNat)[j]?) ∧
      t.mem.read (genBase + n.toNat) = some 0x01#8 ∧ t.genDegree.toNat = n.toNat ∧
      bytesKeptBut (within genBase (n.toNat + 1)) s t ∧ segsKept s t ∧
      regsKept [.status, .errcode, .genDegree] s t ∧ hostSideKept s t) ∧
    (n = 0#8 → exec (.genPoly n) s = .next (s.fail .invalidArgument))

/-- R103: RS_ENCODE writes the ecc of BLK_BUF[0..K-1] behind it; K = 0 is legal. -/
def Obligations.RsEncodeWritesEcc : Prop :=
  ∀ (k n : Byte) (s : State),
    encodedAs (0x21#8 ++ 0#8 ++ k ++ n) .rsEncode (.rsEncode k n) ∧
    (∀ d : List Byte, 1 ≤ n.toNat → k.toNat + n.toNat ≤ 255 → d.length = k.toNat →
      (∀ i (h : i < d.length), s.mem.read (blkBase + i) = some d[i]) →
      ∃ t, exec (.rsEncode k n) s = .next t ∧ completedFrom s t ∧ stagesKept s t ∧
        (Sys2Proof.Machine.rsEncode d n.toNat).length = n.toNat ∧
        (∀ j < n.toNat, t.mem.read (blkBase + k.toNat + j) =
          (Sys2Proof.Machine.rsEncode d n.toNat)[j]?) ∧
        bytesKeptBut (within (blkBase + k.toNat) n.toNat) s t ∧ segsKept s t ∧
        regsKept [.status, .errcode] s t ∧ hostSideKept s t) ∧
    (n.toNat = 0 ∨ 255 < k.toNat + n.toNat →
      exec (.rsEncode k n) s = .next (s.fail .invalidArgument)) ∧
    (1 ≤ n.toNat → k.toNat + n.toNat ≤ 255 → (∃ i < k.toNat, s.mem.read (blkBase + i) = none) →
      exec (.rsEncode k n) s = .fault .unwrittenRead)

/-- R101 (a): the codeword polynomial, data then ecc, is 0 at α^0 … α^(n-1). -/
def Obligations.CodewordHasZeroSyndrome : Prop :=
  ∀ (d : List Byte) (n : Nat), 1 ≤ n → d.length + n ≤ 255 →
    ∀ i < n, polyEval (d ++ Sys2Proof.Machine.rsEncode d n) (gfExp i) = 0x00#8

/-- R101 (b), (c), (d) and R100: the ecc is linear in the data, zero for all-zero and for no data, and
unchanged by a leading zero. -/
def Obligations.EccIsLinear : Prop :=
  (∀ (d d' : List Byte) (n : Nat), d.length = d'.length →
    Sys2Proof.Machine.rsEncode (xorLists d d') n =
      xorLists (Sys2Proof.Machine.rsEncode d n) (Sys2Proof.Machine.rsEncode d' n)) ∧
  (∀ k n : Nat, Sys2Proof.Machine.rsEncode (List.replicate k 0x00#8) n = List.replicate n 0x00#8) ∧
  ∀ (d : List Byte) (n : Nat),
    Sys2Proof.Machine.rsEncode (0x00#8 :: d) n = Sys2Proof.Machine.rsEncode d n

/-! ### The codeword assembler -/

/-- R107 (a) with R104 and R106: the stream order takes each data codeword and each ecc codeword of a
legal EC Spec exactly once. -/
def Obligations.StreamOrderIsBijective : Prop :=
  ∀ v l, 1 ≤ v → v ≤ 40 → l < 4 →
    let x := SpecRegs.of v l
    let row := capacityRow v l
    (∀ p < row.total, within dataBase row.data (x.codewordAddr p) ∨
      within eccBase row.ecc (x.codewordAddr p)) ∧
    (∀ p < row.total, ∀ q < row.total, x.codewordAddr p = x.codewordAddr q → p = q) ∧
    (∀ i < row.data, ∃ p < row.total, x.codewordAddr p = dataBase + i) ∧
    ∀ j < row.ecc, ∃ p < row.total, x.codewordAddr p = eccBase + j

/-- R108: ASSEMBLE writes the ecc of every block, block-major, then the stream in the order of R106, and
nothing else; it needs an EC Spec, and a data codeword that nothing has written stops it. -/
def Obligations.AssembleEncodesAndInterleaves : Prop :=
  encodedAs 0x30000000#32 .assemble .assemble ∧
  (∀ (v l : Nat) (d : List Byte) (s : State),
    1 ≤ v → v ≤ 40 → l < 4 → s.specValid = true → s.spec = SpecRegs.of v l →
    d.length = (capacityRow v l).data →
    (∀ i (h : i < d.length), s.mem.read (dataBase + i) = some d[i]) →
    ∃ t, exec .assemble s = .next t ∧ completedFrom s t ∧ stagesKept s t ∧
      (∀ b < s.spec.blocks, ∀ j < s.spec.eccPerBlock.toNat,
        t.mem.read (eccBase + (b * s.spec.eccPerBlock.toNat + j)) =
          (Sys2Proof.Machine.rsEncode ((d.drop (s.spec.blockOffset b)).take (s.spec.blockSize b))
            s.spec.eccPerBlock.toNat)[j]?) ∧
      (∀ p < (capacityRow v l).total,
        (t.mem.read (streamBase + p)).isSome ∧
        t.mem.read (streamBase + p) = t.mem.read (s.spec.codewordAddr p)) ∧
      bytesKeptBut (fun a => within eccBase (capacityRow v l).ecc a ∨
        within streamBase (capacityRow v l).total a) s t ∧
      segsKept s t ∧ regsKept [.status, .errcode] s t ∧ hostSideKept s t) ∧
  (∀ s : State, s.specValid = false → exec .assemble s = .next (s.fail .notReady)) ∧
  ∀ (v l i : Nat) (s : State), 1 ≤ v → v ≤ 40 → l < 4 → s.specValid = true →
    s.spec = SpecRegs.of v l → i < (capacityRow v l).data → s.mem.read (dataBase + i) = none →
    exec .assemble s = .fault .unwrittenRead

/-- R109: CW_RESET rewinds the cursor, in any state, and keeps CW_OUT. -/
def Obligations.CwResetRewindsCursor : Prop :=
  encodedAs 0x31000000#32 .cwReset .cwReset ∧
  ∀ s, ∃ t, exec .cwReset s = .next t ∧ completedFrom s t ∧ stagesKept s t ∧
    Reg.cwIndex.read t = 0#32 ∧ segsKept s t ∧ regsKept [.status, .errcode, .cwIndex] s t ∧
    bytesKept s t ∧ hostSideKept s t

/-- R110: CW_NEXT yields the codeword at the cursor as the buffers stand and advances, and past the last
one ends in CursorExhausted; it needs an EC Spec. -/
def Obligations.CwNextYieldsCodeword : Prop :=
  encodedAs 0x32000000#32 .cwNext .cwNext ∧
  (∀ s : State, s.specValid = false → exec .cwNext s = .next (s.fail .notReady)) ∧
  ∀ s : State, s.specValid = true →
    (∀ b, s.cwIndex.toNat < s.spec.totalCw.toNat →
      s.mem.read (s.spec.codewordAddr s.cwIndex.toNat) = some b →
      ∃ t, exec .cwNext s = .next t ∧ completedFrom s t ∧ stagesKept s t ∧ t.cwOut = b ∧
        t.cwIndex.toNat = s.cwIndex.toNat + 1 ∧ segsKept s t ∧
        regsKept [.status, .errcode, .cwIndex, .cwOut] s t ∧ bytesKept s t ∧ hostSideKept s t) ∧
    (s.spec.totalCw.toNat ≤ s.cwIndex.toNat →
      exec .cwNext s = .next (s.fail .cursorExhausted)) ∧
    (s.cwIndex.toNat < s.spec.totalCw.toNat →
      s.mem.read (s.spec.codewordAddr s.cwIndex.toNat) = none →
      exec .cwNext s = .fault .unwrittenRead)

/-- R110: after ASSEMBLE the cursor at p yields STREAM_BUF[p], for every p below TOTAL_CW. -/
def Obligations.CursorYieldsAssembledStream : Prop :=
  ∀ (v l p : Nat) (s t : State), 1 ≤ v → v ≤ 40 → l < 4 → s.spec = SpecRegs.of v l →
    s.specValid = true → exec .assemble s = .next t → p < (capacityRow v l).total →
    ∃ u, exec .cwNext { t with cwIndex := BitVec.ofNat 12 p } = .next u ∧
      t.mem.read (streamBase + p) = some u.cwOut ∧ u.cwIndex.toNat = p + 1

/-! ### The frame -/

/-- R117: FRAME_INIT writes all 177 × 177 cells with Skeleton(VERSION_RES), sets the frame registers, and
needs an EC Spec. -/
def Obligations.FrameInitBuildsSkeleton : Prop :=
  encodedAs 0x40000000#32 .frameInit .frameInit ∧
  ∀ s : State,
    (s.specValid = true → ∃ t, exec .frameInit s = .next t ∧ completedFrom s t ∧
      (∀ r < 177, ∀ c < 177,
        t.mem.read (cellAddr r c) = some (skeleton s.spec.version.toNat r c)) ∧
      bytesKeptBut inFrame s t ∧ t.frameVersion = s.spec.version ∧
      t.versionBits = (if 7 ≤ s.spec.version.toNat then versionWord s.spec.version.toNat else 0#18) ∧
      Reg.maskCur.read t = 0#32 ∧ Reg.formatBits.read t = 0#32 ∧ Reg.fillPos.read t = 0#32 ∧
      t.frameStage = .skeleton ∧ t.specValid = true ∧ segsKept s t ∧
      regsKept [.status, .errcode, .frameVersion, .versionBits, .maskCur, .formatBits, .fillPos] s t ∧
      hostSideKept s t) ∧
    (s.specValid = false → exec .frameInit s = .next (s.fail .notReady))

/-- R113 and R74: the laws of Skeleton(v), for all 40 versions and every level. -/
def Obligations.SkeletonLaws : Prop :=
  ∀ v, 1 ≤ v → v ≤ 40 →
    (∀ l < 4, freeCount v = 8 * (capacityRow v l).total + remainderBits v) ∧
    (∀ r < symbolWidth v, cellReserved (skeleton v r 6) = true) ∧
    (∀ l < 4, reservedCount v =
      symbolWidth v * symbolWidth v - 8 * (capacityRow v l).total - remainderBits v) ∧
    cellDark (skeleton v (symbolWidth v - 8) 8) = true

/-- R111 and R112: what each step sets. A finder pattern with its separator at each of three corners
(step 1), both timing patterns (step 2), an alignment pattern at every pair of centres but the three that
lie in a finder pattern (step 3), the light format placeholders (step 4), the dark module (step 5), the two
version blocks (step 6), and nothing outside W. -/
def Obligations.SkeletonPatterns : Prop :=
  ∀ v, 1 ≤ v → v ≤ 40 →
    let w := symbolWidth v
    (∀ r0 c0, (r0 = 0 ∧ c0 = 0) ∨ (r0 = 0 ∧ c0 = w - 7) ∨ (r0 = w - 7 ∧ c0 = 0) →
      ∀ r c, r < w → c < w → r0 ≤ r + 1 → r ≤ r0 + 7 → c0 ≤ c + 1 → c ≤ c0 + 7 →
        let ring := max (absDiff r (r0 + 3)) (absDiff c (c0 + 3))
        skeleton v r c = cellByte (ring == 0 || ring == 1 || ring == 3) true) ∧
    (∀ i, 8 ≤ i → i + 8 < w → skeleton v 6 i = cellByte (i % 2 == 0) true ∧
      skeleton v i 6 = cellByte (i % 2 == 0) true) ∧
    (∀ i j a b, (alignmentCentres v)[i]? = some a → (alignmentCentres v)[j]? = some b →
      ¬ (i = 0 ∧ j = 0) → ¬ (i = 0 ∧ j + 1 = (alignmentCentres v).length) →
      ¬ (i + 1 = (alignmentCentres v).length ∧ j = 0) →
      ∀ r c, a ≤ r + 2 → r ≤ a + 2 → b ≤ c + 2 → c ≤ b + 2 →
        skeleton v r c = cellByte (max (absDiff r a) (absDiff c b) != 1) true) ∧
    (∀ i < 15, skeleton v (formatCell1 i).1 (formatCell1 i).2 = cellByte false true ∧
      skeleton v (formatCell2 w i).1 (formatCell2 w i).2 = cellByte false true) ∧
    skeleton v (w - 8) 8 = cellByte true true ∧
    (7 ≤ v → ∀ i < 18,
      skeleton v (i / 3) (w - 11 + i % 3) = cellByte ((versionWord v).getLsbD i) true ∧
      skeleton v (w - 11 + i % 3) (i / 3) = cellByte ((versionWord v).getLsbD i) true) ∧
    ∀ r c, w ≤ r ∨ w ≤ c → skeleton v r c = cellByte false false

/-- R115: from Start the traversal visits each of the W·(W-1) cells outside column 6 exactly once and then
returns END. -/
def Obligations.ZigzagVisitsEachCellOnce : Prop :=
  ∀ v, 1 ≤ v → v ≤ 40 →
    let w := symbolWidth v
    (zigzag w).length = w * (w - 1) ∧
    ((zigzag w).map fun s => (s.r, s.c)).Nodup ∧
    (∀ s ∈ zigzag w, s.r < w ∧ s.c < w ∧ s.c ≠ 6) ∧
    (∀ r c, r < w → c < w → c ≠ 6 → ∃ s ∈ zigzag w, s.r = r ∧ s.c = c) ∧
    (zigzag w).head? = some ⟨w - 1, w - 1, true, true⟩ ∧
    (∀ i s, (zigzag w)[i]? = some s → cursorStep w s = (zigzag w)[i + 1]?)

/-- R118: FILL_RESET sets FILL_POS to 0 at every FRAME_STAGE. -/
def Obligations.FillResetRewindsCursor : Prop :=
  encodedAs 0x41000000#32 .fillReset .fillReset ∧
  ∀ s, ∃ t, exec .fillReset s = .next t ∧ completedFrom s t ∧ stagesKept s t ∧
    Reg.fillPos.read t = 0#32 ∧ segsKept s t ∧ regsKept [.status, .errcode, .fillPos] s t ∧
    bytesKept s t ∧ hostSideKept s t

/-- R119 with R116: FILL_NEXT reports the next free cell, behind reserved ones; with none left it ends in
CursorExhausted; without a skeleton it ends in NotReady; an unwritten cell stops it. -/
def Obligations.FillNextReportsNextFreeCell : Prop :=
  encodedAs 0x42000000#32 .fillNext .fillNext ∧
  (∀ s : State, s.frameStage = .none → exec .fillNext s = .next (s.fail .notReady)) ∧
  ∀ s : State, s.frameStage ≠ .none →
    (∀ (pre post : List Cursor) (c : Cursor), fillerPath s = pre ++ c :: post →
      (∀ x ∈ pre, reservedAt s.mem x) → freeAt s.mem c →
      ∃ t, exec .fillNext s = .next t ∧ completedFrom s t ∧ stagesKept s t ∧
        Reg.fillPos.read t = 0#13 ++ 1#1 ++ BitVec.ofBool c.right ++ BitVec.ofBool c.up ++
          BitVec.ofNat 8 c.r ++ BitVec.ofNat 8 c.c ∧
        segsKept s t ∧ regsKept [.status, .errcode, .fillPos] s t ∧ bytesKept s t ∧
        hostSideKept s t) ∧
    ((∀ x ∈ fillerPath s, reservedAt s.mem x) →
      exec .fillNext s = .next (s.fail .cursorExhausted)) ∧
    (∀ (pre post : List Cursor) (c : Cursor), fillerPath s = pre ++ c :: post →
      (∀ x ∈ pre, reservedAt s.mem x) → s.mem.read (cellAddr c.r c.c) = none →
      exec .fillNext s = .fault .unwrittenRead)

/-- R119, R120: on a fresh skeleton the free cells of the traversal number 8·T + REM, so exactly so many
FILL_NEXT succeed and FRAME_FILL uses each of them. -/
def Obligations.FreshSkeletonHoldsTheWholeStream : Prop :=
  ∀ (v l : Nat) (m : Memory), 1 ≤ v → v ≤ 40 → l < 4 →
    ((zigzag (symbolWidth v)).filter (isFree (m.writeFrame (skeleton v)))).length =
      8 * (capacityRow v l).total + remainderBits v

/-- R120 with R114: FRAME_FILL puts bit 7 - i mod 8 of STREAM_BUF[i div 8] into the i-th free cell of the
traversal, 0 into the remainder cells behind, and nothing else into the storage. -/
def Obligations.FrameFillPlacesStream : Prop :=
  ∀ (stream : List Byte) (s : State),
    s.frameStage ≠ .none → s.specValid = true → s.frameVersion = s.spec.version →
    1 ≤ s.frameVersion.toNat → s.frameVersion.toNat ≤ 40 → s.mem.wf →
    stream.length = s.spec.totalCw.toNat →
    (∀ i (h : i < stream.length), s.mem.read (streamBase + i) = some stream[i]) →
    (∀ r < frameWidth s, ∀ c < frameWidth s, (s.mem.read (cellAddr r c)).isSome) →
    let free := (zigzag (frameWidth s)).filter (isFree s.mem)
    let n := 8 * s.spec.totalCw.toNat + s.spec.remBits.toNat
    n ≤ free.length →
    ∃ t, exec .frameFill s = .next t ∧ completedFrom s t ∧
      (∀ i < n, ∀ c, free[i]? = some c →
        t.mem.read (cellAddr c.r c.c) =
          some (cellByte ((stream.getD (i / 8) 0#8).getLsbD (7 - i % 8)) false)) ∧
      bytesKeptBut (fun a => ∃ i < n, ∃ c, free[i]? = some c ∧ a = cellAddr c.r c.c) s t ∧
      (∀ c, free[n - 1]? = some c → 1 ≤ n → t.fillPos = c.fillPos) ∧
      t.frameStage = .filled ∧ t.specValid = true ∧
      Reg.maskCur.read t = 0#32 ∧ Reg.formatBits.read t = 0#32 ∧ segsKept s t ∧
      regsKept [.status, .errcode, .fillPos, .maskCur, .formatBits] s t ∧ hostSideKept s t

/-- R120, R15: the errors of FRAME_FILL, with FRAME and FILL_POS unchanged, and where an unwritten codeword
or cell stops it. That the unwritten reads come before CursorExhausted is the model's reading of the
pseudocode's order (log entry 20, DEDUCED). -/
def Obligations.FrameFillErrorsInOrder : Prop :=
  encodedAs 0x43000000#32 .frameFill .frameFill ∧
  ∀ s : State,
    (s.frameStage = .none ∨ s.specValid = false ∨ s.frameVersion ≠ s.spec.version →
      exec .frameFill s = .next (s.fail .notReady)) ∧
    (s.frameStage ≠ .none → s.specValid = true → s.frameVersion = s.spec.version →
      (∀ i < s.spec.totalCw.toNat, (s.mem.read (streamBase + i)).isSome) →
      (∀ c ∈ zigzag (frameWidth s), (s.mem.read (cellAddr c.r c.c)).isSome) →
      ((zigzag (frameWidth s)).filter (isFree s.mem)).length <
        8 * s.spec.totalCw.toNat + s.spec.remBits.toNat →
      exec .frameFill s = .next (s.fail .cursorExhausted)) ∧
    (s.frameStage ≠ .none → s.specValid = true → s.frameVersion = s.spec.version →
      (∃ i < s.spec.totalCw.toNat, s.mem.read (streamBase + i) = none) →
      exec .frameFill s = .fault .unwrittenRead) ∧
    ∀ (pre post : List Cursor) (c : Cursor),
      s.frameStage ≠ .none → s.specValid = true → s.frameVersion = s.spec.version →
      (∀ i < s.spec.totalCw.toNat, (s.mem.read (streamBase + i)).isSome) →
      zigzag (frameWidth s) = pre ++ c :: post →
      (∀ x ∈ pre, (s.mem.read (cellAddr x.r x.c)).isSome) →
      (pre.filter (isFree s.mem)).length < 8 * s.spec.totalCw.toNat + s.spec.remBits.toNat →
      s.mem.read (cellAddr c.r c.c) = none → exec .frameFill s = .fault .unwrittenRead

/-! ### The mask -/

/-- R124 with R121 and R123: MASK undoes the mask already applied, applies the new one to the data cells,
writes the format word at its 30 cells and changes no other byte. Before FRAME_FILL it ends in NotReady.
That any cell inside W that nothing has written stops it, format cells included, is the model's reading
(log entry 24, DEDUCED). The predicates and the cells are written out in MaskPredicatesAndFormatCells. -/
def Obligations.MaskInvertsDataAndWritesFormat : Prop :=
  ∀ (m : BitVec 3) (s : State),
    encodedAs (0x50#8 ++ 0#21 ++ m) .mask (.mask m) ∧
    (s.frameStage = .filled ∨ s.frameStage = .masked → s.mem.wf → 1 ≤ s.frameVersion.toNat →
      s.frameVersion.toNat ≤ 40 →
      (∀ r < frameWidth s, ∀ c < frameWidth s, (s.mem.read (cellAddr r c)).isSome) →
      ∃ t, exec (.mask m) s = .next t ∧ completedFrom s t ∧
        (∀ r < frameWidth s, ∀ c < frameWidth s, ∀ b,
          ¬ isFormatCell (frameWidth s) (cellAddr r c) → s.mem.read (cellAddr r c) = some b →
          t.mem.read (cellAddr r c) =
            some (if cellReserved b then b
              else cellByte (cellDark b ^^
                (decide (s.frameStage = .masked) && maskPred s.maskCur.toNat r c) ^^
                maskPred m.toNat r c) false)) ∧
        (∀ i < 15,
          t.mem.read (cellAddr (formatCell1 i).1 (formatCell1 i).2) =
            some (cellByte ((formatWord s.spec.level.toNat m.toNat).getLsbD i) true) ∧
          t.mem.read (cellAddr (formatCell2 (frameWidth s) i).1 (formatCell2 (frameWidth s) i).2) =
            some (cellByte ((formatWord s.spec.level.toNat m.toNat).getLsbD i) true)) ∧
        bytesKeptBut (fun a => inSymbol (frameWidth s) a = true) s t ∧
        t.formatBits = formatWord s.spec.level.toNat m.toNat ∧ t.maskCur = m ∧
        t.frameStage = .masked ∧ t.specValid = s.specValid ∧ segsKept s t ∧
        regsKept [.status, .errcode, .maskCur, .formatBits] s t ∧ hostSideKept s t) ∧
    (s.frameStage = .none ∨ s.frameStage = .skeleton →
      exec (.mask m) s = .next (s.fail .notReady)) ∧
    (s.frameStage = .filled ∨ s.frameStage = .masked →
      (∃ r < frameWidth s, ∃ c < frameWidth s, s.mem.read (cellAddr r c) = none) →
      exec (.mask m) s = .fault .unwrittenRead)

/-- R121 and R123: the eight predicates, and the cell of each bit of the format word in both copies; the
format write puts bit i, reserved, at its two cells and changes no other byte, and its 30 cells are the
placeholders of step 4 of R111. -/
def Obligations.MaskPredicatesAndFormatCells : Prop :=
  (∀ r c,
    (maskPred 0 r c = true ↔ (r + c) % 2 = 0) ∧
    (maskPred 1 r c = true ↔ r % 2 = 0) ∧
    (maskPred 2 r c = true ↔ c % 3 = 0) ∧
    (maskPred 3 r c = true ↔ (r + c) % 3 = 0) ∧
    (maskPred 4 r c = true ↔ (r / 2 + c / 3) % 2 = 0) ∧
    (maskPred 5 r c = true ↔ (r * c) % 2 + (r * c) % 3 = 0) ∧
    (maskPred 6 r c = true ↔ ((r * c) % 2 + (r * c) % 3) % 2 = 0) ∧
    (maskPred 7 r c = true ↔ ((r + c) % 2 + (r * c) % 3) % 2 = 0)) ∧
  (List.range 15).map formatCell1 =
    [(0, 8), (1, 8), (2, 8), (3, 8), (4, 8), (5, 8), (7, 8), (8, 8), (8, 7),
     (8, 5), (8, 4), (8, 3), (8, 2), (8, 1), (8, 0)] ∧
  ∀ v, 1 ≤ v → v ≤ 40 →
    let w := symbolWidth v
    (List.range 15).map (formatCell2 w) =
      [(8, w - 1), (8, w - 2), (8, w - 3), (8, w - 4), (8, w - 5), (8, w - 6), (8, w - 7), (8, w - 8),
       (w - 7, 8), (w - 6, 8), (w - 5, 8), (w - 4, 8), (w - 3, 8), (w - 2, 8), (w - 1, 8)] ∧
    (∀ r c, r < w → c < w →
      (isFormatCell w (cellAddr r c) ↔
        (r = 8 ∧ ((c ≤ 8 ∧ c ≠ 6) ∨ w - 8 ≤ c)) ∨ (c = 8 ∧ ((r ≤ 8 ∧ r ≠ 6) ∨ w - 7 ≤ r)))) ∧
    ∀ (m : Memory) (f : BitVec 15), m.wf →
      (∀ i < 15,
        (writeFormat m w f).read (cellAddr (formatCell1 i).1 (formatCell1 i).2) =
          some (cellByte (f.getLsbD i) true) ∧
        (writeFormat m w f).read (cellAddr (formatCell2 w i).1 (formatCell2 w i).2) =
          some (cellByte (f.getLsbD i) true)) ∧
      ∀ a, ¬ isFormatCell w a → (writeFormat m w f).read a = m.read a

/-- R124: on a filled or a masked frame, MASK m1 then MASK m2 leaves the machine as MASK m2 alone does. -/
def Obligations.MaskReplacesEarlierMask : Prop :=
  ∀ (m1 m2 : BitVec 3) (s : State), s.frameStage = .filled ∨ s.frameStage = .masked → s.mem.wf →
    1 ≤ s.frameVersion.toNat → s.frameVersion.toNat ≤ 40 →
    (∀ r < frameWidth s, ∀ c < frameWidth s, (s.mem.read (cellAddr r c)).isSome) →
    ∃ t u, exec (.mask m1) s = .next t ∧ exec (.mask m2) t = .next u ∧
      exec (.mask m2) s = .next u

/-! ### Whole-machine rules -/

/-- R127: a command word that ends in error, IllegalCommand included, has no effect but ERRCODE, ERR and
BUSY. (busyLeft is the model's own and 0 while BUSY = 0, log entry 3.) -/
def Obligations.ErrorCompletionChangesNothingElse : Prop :=
  ∀ (i : Instr) (s t : State), exec i s = .next t ∨ engineStep s = .next t → t.errcode ≠ 0#4 →
    t = { s with errcode := t.errcode, err := true, busy := false, busyLeft := 0 }

/-- R24, R126: every command that ends has BUSY 0; a success keeps ERR and CMD, except that SOFT_RESET
clears both (R69). -/
def Obligations.CompletionClearsBusyAndKeepsErr : Prop :=
  ∀ (i : Instr) (s t : State), exec i s = .next t →
    t.busy = false ∧ (i ≠ .softReset → t.cmd = s.cmd) ∧
    (t.errcode = 0#4 → i ≠ .softReset → t.err = s.err)

/-- R125: a command ends with 0 or with one of the codes that the table says it raises. -/
def Obligations.OnlyListedCodesAreProduced : Prop :=
  ∀ (i : Instr) (s t : State), exec i s = .next t →
    t.errcode = 0#4 ∨ ∃ c ∈ mayRaise i, t.errcode = c.code

/-- R15, R130: the one model fault of the Engine is UnwrittenRead, only at a command that reads the
storage, and no command is refused. -/
def Obligations.EngineFaultsOnlyOnUnwrittenReads : Prop :=
  ∀ (i : Instr) (s : State),
    (∀ f, exec i s = .fault f → f = .unwrittenRead ∧ readsStorage i = true) ∧
    ∀ r, exec i s ≠ .refused r

/-- R128: an illegal operand ends a command with InvalidArgument in every state, before any state is
read, and a legal one never does. -/
def Obligations.InvalidArgumentComesFirst : Prop :=
  ∀ (i : Instr) (s : State),
    (i.wellFormed = false → exec i s = .next (s.fail .invalidArgument)) ∧
    (i.wellFormed = true → ∀ t, exec i s = .next t → t.errcode ≠ ErrCode.invalidArgument.code)

/-- R26: SPEC_VALID is set by a successful SEL_RUN or SPEC_QUERY and cleared only by SOFT_RESET, and the
commands that read the spec result registers end in NotReady while it is 0: ASSEMBLE, CW_NEXT, FRAME_INIT
and FRAME_FILL in every state, and MASK, which reads LEVEL_RES and checks FRAME_STAGE, where the frame
registers agree with FRAME_STAGE (frameOk, a part of legal: past NONE the spec is valid, R124). -/
def Obligations.SpecValidChangesOnlyByItsCommands : Prop :=
  (∀ s t : State, step s = .next t → s.specValid = true → t.specValid = false →
    s.busy = true ∧ decode s.cmd = .ok .softReset) ∧
  (∀ s t : State, step s = .next t → s.specValid = false → t.specValid = true →
    s.busy = true ∧ t.errcode = 0#4 ∧ ∃ version level,
      decode s.cmd = .ok (.selRun version level) ∨ decode s.cmd = .ok (.specQuery version level)) ∧
  (∀ i ∈ [Instr.assemble, .cwNext, .frameInit, .frameFill], ∀ s : State, s.specValid = false →
    exec i s = .next (s.fail .notReady)) ∧
  ∀ (m : BitVec 3) (s : State), frameOk s → s.specValid = false →
    exec (.mask m) s = .next (s.fail .notReady)

/-- R27: FRAME_STAGE is written only by FRAME_INIT (to 1), FRAME_FILL (to 2), MASK (to 3) and SOFT_RESET
(to 0), and by no Host access. -/
def Obligations.FrameStageChangesOnlyByItsCommands : Prop :=
  ∀ s t : State, step s = .next t → t.frameStage ≠ s.frameStage →
    s.busy = true ∧
    ((t.frameStage = .skeleton ∧ decode s.cmd = .ok .frameInit) ∨
     (t.frameStage = .filled ∧ decode s.cmd = .ok .frameFill) ∨
     (t.frameStage = .masked ∧ ∃ m, decode s.cmd = .ok (.mask m)) ∨
     (t.frameStage = .none ∧ decode s.cmd = .ok .softReset))

/-- R129, R25: ERR stays 1 until the Host writes STATUS with bit 1 = 1 or SOFT_RESET runs. -/
def Obligations.ErrIsSticky : Prop :=
  ∀ s t : State, step s = .next t → s.err = true → t.err = false →
    (s.busy = true ∧ decode s.cmd = .ok .softReset) ∨
    (s.busy = false ∧ ∃ v rest, s.port = .sw 0x004#32 v :: rest ∧ v.getLsbD 1 = true)

/-- R41: a command's effect is defined by its operands and the block's own state alone: the accesses the
Host has waiting, the values it has read and the count of draws neither change it nor are changed by it. -/
def Obligations.CommandsIgnoreTheHostSide : Prop :=
  ∀ (i : Instr) (s : State) (p : List HostAction) (r : List Word) (d : Nat),
    (∀ t, exec i s = .next t →
      exec i { s with port := p, replies := r, draws := d } =
        .next { t with port := p, replies := r, draws := d }) ∧
    ∀ f, exec i s = .fault f → exec i { s with port := p, replies := r, draws := d } = .fault f

/-! ### Encoding -/

/-- R57, R58, R66: every command, with every operand at every value, decodes from its own word. -/
def Obligations.DecodeOfEncode : Prop := ∀ i : Instr, decode (encode i) = .ok i

/-- R56, R63: a word that decodes is the word of the command it decodes to, so no bit is dropped. -/
def Obligations.EncodeOfDecode : Prop :=
  ∀ (w : Word) (i : Instr), decode w = .ok i → encode i = w

/-- R63, R64: every word with an unassigned opcode or a reserved bit set, and no other, ends with
IllegalCommand and nothing else. -/
def Obligations.IllegalWordsEndInIllegalCommand : Prop :=
  (∀ w : Word, (∃ e, decode w = .error e) ↔
    (w.extractLsb' 24 8).toNat ∉ [0x00, 0x01, 0x10, 0x11, 0x12, 0x13, 0x20, 0x21, 0x30, 0x31, 0x32,
      0x40, 0x41, 0x42, 0x43, 0x50] ∨
    ∃ op ∈ Opcode.all, op.code = w.extractLsb' 24 8 ∧ w &&& op.format.reservedMask ≠ 0#32) ∧
  ∀ (s : State) (e : DecodeError), decode s.cmd = .error e →
    engineStep s = .next (s.fail .illegalCommand)

/-- The words of 95_test_vectors.md section 2.1, one for each format. -/
def Obligations.SampleWordsDecode : Prop :=
  decode 0x00000000#32 = .ok .nop ∧ decode 0x1101000B#32 = .ok (.selAdd 1 11) ∧
  decode 0x12002903#32 = .ok (.selRun 41 3) ∧ decode 0x13002800#32 = .ok (.specQuery 40 0) ∧
  decode 0x200000FF#32 = .ok (.genPoly 255) ∧ decode 0x2100FE01#32 = .ok (.rsEncode 254 1) ∧
  decode 0x50000007#32 = .ok (.mask 7) ∧ decode 0x43000000#32 = .ok .frameFill ∧
  decode 0x50000008#32 = .error .reservedBitSet ∧ decode 0x02000000#32 = .error .unassignedOpcode

/-! ### The step and the Host port -/

/-- R23, R51: while BUSY = 1 and no Host read comes first, a step is the command decoded from CMD, run
whole on that state; and a word placed by withFetchWord is run by the very next step. That the Engine moves
with an empty port, or once the reads drawn are used up, and what withFetchWord sets, is the model's choice
(log entries 3, 7 and 25, DESIGN CHOICE). -/
def Obligations.StepRunsDecodedCommand : Prop :=
  (∀ (s : State) (i : Instr), s.busy = true → decode s.cmd = .ok i →
    s.port = [] ∨ (∃ a rest, s.port = a :: rest ∧ allowedWhileBusy a = true ∧ s.busyLeft = 0) →
    step s = exec i s) ∧
  ∀ (s : State) (nbits w : Nat) (i : Instr), decodeTableWord nbits w = some i →
    step (s.withFetchWord nbits w) = exec i (s.withFetchWord nbits w)

/-- R139: while BUSY = 1 a read of STATUS or ERRCODE is served, with the register as it stands and no
register or byte changed, and any other Host access is a hazard. The wait of R67 is such reads. The model's
own are: that ERRCODE reads as before the command (log entry 19, DEDUCED), that a forbidden access is a
hazard at once (log entry 4, DESIGN CHOICE) and a hazard even where it would be a bus error (log entry 14,
DESIGN CHOICE), and that a read comes before the completion while busyLeft is not 0 (log entry 3). -/
def Obligations.BusyHostMayOnlyReadStatus : Prop :=
  ∀ (s : State) (a : HostAction) (rest : List HostAction), s.busy = true → s.port = a :: rest →
    (a ≠ .lw 0x004#32 → a ≠ .lw 0x008#32 → a ≠ .wait → step s = .fault .busyHazard) ∧
    (a = .lw 0x004#32 → 0 < s.busyLeft → ∃ t, step s = .next t ∧
      t.replies = statusWord s :: s.replies ∧ regsKept [] s t ∧ t.mem = s.mem ∧ t.port = rest) ∧
    (a = .lw 0x008#32 → 0 < s.busyLeft → ∃ t, step s = .next t ∧
      t.replies = s.errcode.setWidth 32 :: s.replies ∧ regsKept [] s t ∧ t.mem = s.mem ∧
      t.port = rest)

/-- R23: a Host write of w to CMD while BUSY = 0 stores w, sets BUSY and changes nothing else of the
block. -/
def Obligations.CmdWriteIssuesCommand : Prop :=
  ∀ (s : State) (w : Word) (rest : List HostAction), s.busy = false →
    s.port = .sw 0x000#32 w :: rest →
    ∃ t, step s = .next t ∧ Reg.cmd.read t = w ∧ t.busy = true ∧ t.err = s.err ∧ stagesKept s t ∧
      segsKept s t ∧ regsKept [.cmd, .status] s t ∧ bytesKept s t ∧ t.port = rest ∧
      t.replies = s.replies ∧ t.params = s.params

/-- R25: a Host write to STATUS clears ERR when its bit 1 is 1 and changes nothing else. -/
def Obligations.StatusWriteClearsErr : Prop :=
  ∀ (s : State) (v : Word) (rest : List HostAction), s.busy = false →
    s.port = .sw 0x004#32 v :: rest →
    ∃ t, step s = .next t ∧ t.err = (if v.getLsbD 1 then false else s.err) ∧ t.busy = false ∧
      stagesKept s t ∧ segsKept s t ∧ regsKept [.status] s t ∧ bytesKept s t ∧ t.port = rest ∧
      t.replies = s.replies ∧ t.draws = s.draws ∧ t.params = s.params

/-- R21, R22, R36, R48: a word read of the idle block returns the register at its offset, 0 at a reserved
offset, or the SEG_TABLE entry, and changes nothing. -/
def Obligations.WordReadsReturnRegisters : Prop :=
  ∀ (s : State) (rest : List HostAction), s.busy = false →
    (∀ r : Reg, s.port = .lw (BitVec.ofNat 32 r.offset) :: rest →
      step s = .next { s with port := rest, replies := r.read s :: s.replies }) ∧
    (∀ off, 0x064 ≤ off → off ≤ 0x0FC → off % 4 = 0 → s.port = .lw (BitVec.ofNat 32 off) :: rest →
      step s = .next { s with port := rest, replies := 0#32 :: s.replies }) ∧
    ∀ i < 256, s.port = .lw (BitVec.ofNat 32 (segBase + 4 * i)) :: rest →
      step s = .next { s with port := rest, replies := segTableWord s i :: s.replies }

/-- R22, R46: Host writes to read-only registers, reserved offsets, SEG_TABLE, GEN_BUF, GF_EXP and GF_LOG
have no effect. -/
def Obligations.ReadOnlyWritesHaveNoEffect : Prop :=
  ∀ (s : State) (rest : List HostAction), s.busy = false →
    (∀ off v, 0x008 ≤ off → off ≤ 0x0FC → off % 4 = 0 →
      s.port = .sw (BitVec.ofNat 32 off) v :: rest → step s = .next { s with port := rest }) ∧
    (∀ i v, i < 256 → s.port = .sw (BitVec.ofNat 32 (segBase + 4 * i)) v :: rest →
      step s = .next { s with port := rest }) ∧
    ∀ a v, 0x3100 ≤ a → a ≤ 0x33FF → s.port = .sb (BitVec.ofNat 32 a) v :: rest →
      step s = .next { s with port := rest }

/-- R43, R44, R45: an access of the idle block is a bus error exactly where the address map does not allow
it, and every other access is served. -/
def Obligations.BusErrorExactlyOffTheMap : Prop :=
  ∀ (s : State) (a : HostAction) (rest : List HostAction), s.busy = false → s.port = a :: rest →
    (¬ mapsTo a → step s = .fault .busError) ∧ (mapsTo a → ∃ t, step s = .next t)

/-- R37, R40, R46: a byte the Host writes to a buffer or a frame cell is the byte it reads back, bits 7:2
of a cell being 0, and no other byte and no register changes. -/
def Obligations.HostBytesReadBack : Prop :=
  ∀ (s : State) (a : Nat) (v : Byte) (rest : List HostAction), s.busy = false → s.mem.wf →
    regionOf a = some .buffer ∨ (∃ r c, regionOf a = some (.frame r c)) →
    s.port = .sb (BitVec.ofNat 32 a) v :: .lb (BitVec.ofNat 32 a) :: rest →
    ∃ t u, step s = .next t ∧ bytesKeptBut (fun x => x = a) s t ∧ regsKept [] s t ∧ step t = .next u ∧
      u.replies = (if frameBase ≤ a then v &&& 0x03#8 else v).setWidth 32 :: s.replies ∧
      bytesKept t u ∧ regsKept [] t u ∧ u.port = rest

/-- R38: a Host read of a buffer byte or a frame cell that nothing has written returns a value of which
nothing is known, whatever the count of draws stands at, and no register or byte changes. That each read
takes the free value at a running count and raises the count is the model's choice (log entry 2, DESIGN
CHOICE). -/
def Obligations.UnwrittenHostReadIsFree : Prop :=
  ∀ (s : State) (a : Nat) (rest : List HostAction), s.busy = false →
    regionOf a = some .buffer ∨ regionOf a = some .genBuf ∨ (∃ r c, regionOf a = some (.frame r c)) →
    s.mem.read a = none → s.port = .lb (BitVec.ofNat 32 a) :: rest →
    ∃ t, step s = .next t ∧
      t.replies = (if frameBase ≤ a then Config.freeByte s.draws &&& 0x03#8
        else Config.freeByte s.draws).setWidth 32 :: s.replies ∧
      t.draws = s.draws + 1 ∧ regsKept [] s t ∧ bytesKept s t ∧ t.port = rest

/-- R67, R143: whatever the latency drawn, `do X` takes an idle block through the command: after
finitely many steps the effect of X is there, BUSY reads 0 and the Host goes on behind the wait. That the
latency is counted in Host reads is the model's choice (log entry 3, DESIGN CHOICE). -/
def Obligations.DoCommandRunsToCompletion : Prop :=
  ∀ (i : Instr) (s t : State) (rest : List HostAction), s.busy = false →
    s.port = scriptDo i ++ rest →
    exec i (startedBy i rest s) = .next t →
    ∃ k, Host.Core.run Sys2Proof.core k s = .next { t with port := rest } ∧ t.busy = false

/-! ### Invariants -/

/-- The state after reset is legal. -/
def Obligations.ResetIsLegal : Prop := legal State.reset

/-- R26, R30: every step keeps the spec result registers an EC Spec of the table, or 0 while SPEC_VALID is
0. -/
def Obligations.StepKeepsSpecRegisters : Prop :=
  ∀ s t : State, specOk s → step s = .next t → specOk t

/-- Every step, of the Engine and of the Host, keeps a legal state legal: the storage canonical and
inside the map, the registers in their ranges, GEN_BUF the generator GEN_DEGREE announces, the frame
registers in agreement with FRAME_STAGE, and FILL_POS on the traversal. -/
def Obligations.StepKeepsLegal : Prop :=
  ∀ s t : State, legal s → step s = .next t → legal t
end

