-- ==== Sys2Proof/Laws/Memory.lean ====
section
/-! SUPPORT. What each operation on the storage does to a read of one byte, and that each keeps the
canonical form. -/

namespace Sys2Proof.Machine

open Sys2Proof

namespace Memory

@[simp] theorem read_nil (a : Nat) : Memory.read [] a = none := rfl

theorem read_cons (e : Host.Cell) (m : Memory) (a : Nat) :
    Memory.read (e :: m) a = if e.1 = a then some e.2 else Memory.read m a := rfl

theorem wf_nil : Memory.wf [] := List.Pairwise.nil

/-- An address that no entry has reads as nothing. -/
theorem read_eq_none {m : Memory} {a : Nat} (h : ∀ e ∈ m, e.1 ≠ a) : m.read a = none := by
  induction m with
  | nil => rfl
  | cons e m ih =>
    rw [read_cons, if_neg (h e (by simp))]
    exact ih fun f hf => h f (by simp [hf])

theorem read_isSome_iff {m : Memory} {a : Nat} : (m.read a).isSome ↔ ∃ e ∈ m, e.1 = a := by
  induction m with
  | nil => simp
  | cons e m ih =>
    rw [read_cons]
    by_cases h : e.1 = a <;> simp [h, ih]

theorem read_append (m n : Memory) (a : Nat) :
    Memory.read (m ++ n) a = (Memory.read m a).or (Memory.read n a) := by
  induction m with
  | nil => rfl
  | cons e m ih =>
    rw [List.cons_append, read_cons, read_cons, ih]
    split <;> rfl

/-- Reading through a filter on addresses. -/
theorem read_filter (m : Memory) (p : Nat → Bool) (a : Nat) :
    Memory.read (m.filter fun e => p e.1) a = if p a then m.read a else none := by
  induction m with
  | nil => simp
  | cons e m ih =>
    rw [List.filter_cons]
    by_cases hk : e.1 = a
    · by_cases hp : p e.1 = true
      · simp [hp, read_cons, ← hk]
      · rw [if_neg hp, ih]
        rw [hk] at hp
        simp [hp]
    · by_cases hp : p e.1 = true
      · rw [if_pos hp, read_cons, read_cons, if_neg hk, if_neg hk, ih]
      · rw [if_neg hp, read_cons, if_neg hk, ih]

/-- Read after write, at every address, in every memory. -/
theorem read_write (m : Memory) (a : Nat) (v : Byte) (b : Nat) (hm : m.wf) :
    (m.write a v).read b = if a = b then some v else m.read b := by
  induction m with
  | nil => simp [Memory.write, read_cons]
  | cons e m ih =>
    obtain ⟨k, x⟩ := e
    have hm' := (List.pairwise_cons.1 hm)
    rw [Memory.write]
    split
    · simp [read_cons]
    · split
      · rename_i h1 h2
        subst h2
        simp only [read_cons]
        split <;> rfl
      · rename_i h1 h2
        rw [read_cons, read_cons, ih hm'.2]
        by_cases hb : a = b
        · subst hb
          simp [Ne.symm h2]
        · simp [hb]

@[simp] theorem read_write_same (m : Memory) (a : Nat) (v : Byte) (hm : m.wf) :
    (m.write a v).read a = some v := by
  simp [read_write m a v a hm]

theorem read_write_ne (m : Memory) {a b : Nat} (v : Byte) (hm : m.wf) (h : a ≠ b) :
    (m.write a v).read b = m.read b := by
  simp [read_write m a v b hm, h]

theorem mem_write {m : Memory} {a : Nat} {v : Byte} {e : Host.Cell} (h : e ∈ m.write a v) :
    e = (a, v) ∨ e ∈ m := by
  induction m with
  | nil => simpa [Memory.write] using h
  | cons f m ih =>
    obtain ⟨k, x⟩ := f
    rw [Memory.write] at h
    split at h
    · simpa using h
    · split at h
      · rcases List.mem_cons.1 h with h | h
        · exact .inl h
        · exact .inr (by simp [h])
      · rcases List.mem_cons.1 h with h | h
        · exact .inr (by simp [h])
        · exact (ih h).imp id fun h => by simp [h]

/-- A write keeps the canonical form. -/
theorem wf_write {m : Memory} (a : Nat) (v : Byte) (hm : m.wf) : (m.write a v).wf := by
  induction m with
  | nil => simp [Memory.write]
  | cons e m ih =>
    obtain ⟨k, x⟩ := e
    have hm' := (List.pairwise_cons.1 hm)
    rw [Memory.write]
    split
    · rename_i h
      refine List.pairwise_cons.2 ⟨fun f hf => ?_, hm⟩
      rcases List.mem_cons.1 hf with hf | hf
      · simpa [hf] using h
      · exact Nat.lt_trans h (hm'.1 f hf)
    · split
      · rename_i h1 h2
        subst h2
        exact List.pairwise_cons.2 ⟨hm'.1, hm'.2⟩
      · rename_i h1 h2
        refine List.pairwise_cons.2 ⟨fun f hf => ?_, ih hm'.2⟩
        rcases mem_write hf with hf | hf
        · simp only [hf]
          omega
        · exact hm'.1 f hf

theorem mem_cellsFrom {bs : List Byte} {base : Nat} {e : Host.Cell} (h : e ∈ cellsFrom base bs) :
    base ≤ e.1 ∧ e.1 < base + bs.length := by
  induction bs generalizing base with
  | nil => simp [cellsFrom] at h
  | cons b bs ih =>
    rcases List.mem_cons.1 h with h | h
    · simp [h]
    · have := ih h
      simp only [List.length_cons]
      omega

theorem read_cellsFrom (bs : List Byte) (base a : Nat) :
    Memory.read (cellsFrom base bs) a = if base ≤ a then bs[a - base]? else none := by
  induction bs generalizing base with
  | nil => simp [cellsFrom]
  | cons b bs ih =>
    rw [cellsFrom, read_cons, ih]
    by_cases h : base = a
    · simp [h]
    · by_cases h2 : base + 1 ≤ a
      · have e : a - base = (a - (base + 1)) + 1 := by omega
        simp [h, h2, show base ≤ a by omega, e]
      · simp [h, h2, show ¬ base ≤ a by omega]

/-- Read after a write of a range: the bytes written inside it, the bytes as before outside it. -/
theorem read_writeRange (m : Memory) (base : Nat) (bs : List Byte) (a : Nat) :
    (m.writeRange base bs).read a =
      if base ≤ a ∧ a < base + bs.length then bs[a - base]? else m.read a := by
  rw [Memory.writeRange, read_append, read_append, read_cellsFrom,
    read_filter m (fun k => decide (k < base)), read_filter m (fun k => decide (base + bs.length ≤ k))]
  by_cases h1 : a < base
  · simp [h1, show ¬ base ≤ a by omega, show ¬ base + bs.length ≤ a by omega]
  · by_cases h2 : a < base + bs.length
    · have : a - base < bs.length := by omega
      simp [h1, show base ≤ a by omega, h2, this]
    · have : bs.length ≤ a - base := by omega
      simp [h1, show base ≤ a by omega, h2, this, show base + bs.length ≤ a by omega]

theorem read_writeRange_inside (m : Memory) (base : Nat) (bs : List Byte) {j : Nat}
    (h : j < bs.length) : (m.writeRange base bs).read (base + j) = some bs[j] := by
  simp [read_writeRange, h]

theorem read_writeRange_outside (m : Memory) (base : Nat) (bs : List Byte) {a : Nat}
    (h : a < base ∨ base + bs.length ≤ a) : (m.writeRange base bs).read a = m.read a := by
  rw [read_writeRange, if_neg (by omega)]

theorem wf_cellsFrom (base : Nat) (bs : List Byte) : Memory.wf (cellsFrom base bs) := by
  induction bs generalizing base with
  | nil => exact List.Pairwise.nil
  | cons b bs ih =>
    refine List.pairwise_cons.2 ⟨fun e he => ?_, ih (base + 1)⟩
    have := mem_cellsFrom he
    simp only
    omega

/-- Three pieces in address order, each canonical, are canonical together. -/
theorem wf_append3 {x y z : Memory} (hx : x.wf) (hy : y.wf) (hz : z.wf)
    (hxy : ∀ e ∈ x, ∀ f ∈ y, e.1 < f.1) (hyz : ∀ e ∈ y, ∀ f ∈ z, e.1 < f.1)
    (hxz : ∀ e ∈ x, ∀ f ∈ z, e.1 < f.1) : Memory.wf (x ++ y ++ z) := by
  refine List.pairwise_append.2 ⟨List.pairwise_append.2 ⟨hx, hy, hxy⟩, hz, fun e he f hf => ?_⟩
  rcases List.mem_append.1 he with he | he
  · exact hxz e he f hf
  · exact hyz e he f hf

/-- A write of a range keeps the canonical form. -/
theorem wf_writeRange {m : Memory} (base : Nat) (bs : List Byte) (hm : m.wf) :
    (m.writeRange base bs).wf := by
  refine wf_append3 (hm.filter _) (wf_cellsFrom base bs) (hm.filter _) ?_ ?_ ?_
  · intro e he f hf
    have h1 : e.1 < base := by simpa using (List.mem_filter.1 he).2
    have h2 := mem_cellsFrom hf
    omega
  · intro e he f hf
    have h1 := mem_cellsFrom he
    have h2 : base + bs.length ≤ f.1 := by simpa using (List.mem_filter.1 hf).2
    omega
  · intro e he f hf
    have h1 : e.1 < base := by simpa using (List.mem_filter.1 he).2
    have h2 : base + bs.length ≤ f.1 := by simpa using (List.mem_filter.1 hf).2
    omega

theorem mem_writeRange {m : Memory} {base : Nat} {bs : List Byte} {e : Host.Cell}
    (h : e ∈ m.writeRange base bs) : e ∈ m ∨ (base ≤ e.1 ∧ e.1 < base + bs.length) := by
  rw [Memory.writeRange, List.mem_append, List.mem_append] at h
  rcases h with (h | h) | h
  · exact .inl (List.mem_filter.1 h).1
  · exact .inr (mem_cellsFrom h)
  · exact .inl (List.mem_filter.1 h).1

/-- Canonical memories that read the same at every address are equal. -/
theorem eq_of_read_eq {m n : Memory} (hm : m.wf) (hn : n.wf) (h : ∀ a, m.read a = n.read a) :
    m = n := by
  induction m generalizing n with
  | nil =>
    cases n with
    | nil => rfl
    | cons f n => simpa [read_cons] using h f.1
  | cons e m ih =>
    have hm' := List.pairwise_cons.1 hm
    cases n with
    | nil => simpa [read_cons] using h e.1
    | cons f n =>
      have hn' := List.pairwise_cons.1 hn
      have key : e.1 = f.1 := by
        rcases Nat.lt_trichotomy e.1 f.1 with hlt | heq | hgt
        · have := h e.1
          rw [read_cons, if_pos rfl, read_cons, if_neg (by omega),
            read_eq_none fun g hg => by have := hn'.1 g hg; omega] at this
          simp at this
        · exact heq
        · have := h f.1
          rw [read_cons, if_neg (by omega), read_cons, if_pos rfl,
            read_eq_none fun g hg => by have := hm'.1 g hg; omega] at this
          simp at this
      have hv : e.2 = f.2 := by
        have := h e.1
        simpa [read_cons, key] using this
      have htail : m = n := by
        refine ih hm'.2 hn'.2 fun a => ?_
        by_cases ha : e.1 = a
        · rw [read_eq_none fun g hg => by have := hm'.1 g hg; omega,
            read_eq_none fun g hg => by have := hn'.1 g hg; omega]
        · have := h a
          rwa [read_cons, if_neg ha, read_cons, if_neg (by omega)] at this
      rw [htail, Prod.ext key hv]

end Memory

/-! ### Lists of reads -/

theorem allSome_eq_some_iff {α : Type} {l : List (Option α)} {ys : List α} :
    allSome l = some ys ↔ l = ys.map some := by
  induction l generalizing ys with
  | nil => cases ys <;> simp [allSome]
  | cons o l ih =>
    cases o with
    | none => cases ys <;> simp [allSome]
    | some x =>
      rw [allSome]
      cases h : allSome l with
      | none =>
        cases ys with
        | nil => simp
        | cons y ys =>
          simp only [List.map_cons, List.cons.injEq, reduceCtorEq, false_iff, not_and]
          intro _ hl
          rw [ih.2 hl] at h
          simp at h
      | some zs =>
        have hz := ih.1 h
        cases ys with
        | nil => simp
        | cons y ys =>
          simp only [Option.some.injEq, List.cons.injEq, List.map_cons]
          rw [hz]
          constructor
          · rintro ⟨rfl, rfl⟩
            exact ⟨rfl, rfl⟩
          · rintro ⟨rfl, h2⟩
            exact ⟨rfl, List.map_injective_iff.2 (Option.some_injective α) h2⟩

theorem allSome_isSome_iff {α : Type} {l : List (Option α)} :
    (allSome l).isSome ↔ ∀ o ∈ l, o.isSome := by
  induction l with
  | nil => simp [allSome]
  | cons o l ih =>
    cases o with
    | none => simp [allSome]
    | some x =>
      rw [allSome]
      cases h : allSome l with
      | none => simpa [h] using ih
      | some zs => simpa [h] using ih

/-- What a range read answers: as many bytes as asked for, each the byte at its address. -/
theorem readRange_eq_some_iff {m : Memory} {base n : Nat} {bs : List Byte} :
    m.readRange base n = some bs ↔
      bs.length = n ∧ ∀ i (h : i < bs.length), m.read (base + i) = some bs[i] := by
  rw [Memory.readRange, allSome_eq_some_iff]
  constructor
  · intro h
    have hl : bs.length = n := by simpa using (congrArg List.length h).symm
    refine ⟨hl, fun i hi => ?_⟩
    have := congrArg (fun l => l[i]?) h
    simpa [hi, hl ▸ hi] using this
  · rintro ⟨hl, h⟩
    apply List.ext_getElem
    · simp [hl]
    · intro i h1 h2
      simpa using h i (by simpa using h2)

theorem readRange_isSome_iff {m : Memory} {base n : Nat} :
    (m.readRange base n).isSome ↔ ∀ i < n, (m.read (base + i)).isSome := by
  rw [Memory.readRange, allSome_isSome_iff]
  simp

/-- Two memories that read the same over a range have the same range read. -/
theorem readRange_congr {m m' : Memory} {base n : Nat}
    (h : ∀ i < n, m.read (base + i) = m'.read (base + i)) :
    m.readRange base n = m'.readRange base n := by
  rw [Memory.readRange, Memory.readRange]
  congr 1
  apply List.map_congr_left
  intro i hi
  exact h i (List.mem_range.1 hi)

end Sys2Proof.Machine
end

