-- ==== Sys2Proof/Laws/Frame.lean ====
section
/-! SUPPORT. What the operations on the frame store do to a read of one byte, and that each keeps the
canonical form. -/

namespace Sys2Proof.Machine

open Sys2Proof

/-- Two cells with columns inside a row of 256 bytes share an address only if they are one cell. -/
theorem cellAddr_inj {r c r' c' : Nat} (hc : c < 256) (hc' : c' < 256)
    (h : cellAddr r c = cellAddr r' c') : r = r' ∧ c = c' := by
  unfold cellAddr at h
  omega

theorem cellAddr_row (r c : Nat) (hc : c < 256) : (cellAddr r c - frameBase) / 256 = r := by
  unfold cellAddr
  omega

theorem cellAddr_col (r c : Nat) (hc : c < 256) : (cellAddr r c - frameBase) % 256 = c := by
  unfold cellAddr
  omega

theorem frameBase_le_cellAddr (r c : Nat) : frameBase ≤ cellAddr r c := by
  unfold cellAddr
  omega

theorem cellAddr_lt_frameEnd {r c : Nat} (hr : r < 177) (hc : c < 256) : cellAddr r c < frameEnd := by
  unfold cellAddr frameBase frameEnd
  omega

/-- From FRAME's base on, the map gives the row and the column as quotient and remainder (R43). -/
theorem regionOf_frame {a : Nat} (lo : 0x10000 ≤ a) (hi : a ≤ 0x1B0FF)
    (col : (a - 0x10000) % 256 ≤ 176) :
    regionOf a = some (.frame ((a - 0x10000) / 256) ((a - 0x10000) % 256)) := by
  unfold regionOf
  split_ifs <;> first | rfl | omega

/-- A cell of the frame store is a mapped address of the FRAME region (R43). -/
theorem regionOf_cellAddr {r c : Nat} (hr : r < 177) (hc : c < 177) :
    regionOf (cellAddr r c) = some (.frame r c) := by
  have row := cellAddr_row r c (by omega)
  have col := cellAddr_col r c (by omega)
  have base : frameBase = 0x10000 := rfl
  have lo := frameBase_le_cellAddr r c
  have hi := cellAddr_lt_frameEnd hr (show c < 256 by omega)
  have top : frameEnd = 0x1B100 := rfl
  rw [base] at row col
  have h := regionOf_frame (a := cellAddr r c) (by omega) (by omega) (by omega)
  rwa [row, col] at h

@[simp] theorem cellDark_cellByte (d s : Bool) : cellDark (cellByte d s) = d := by
  cases d <;> cases s <;> rfl

@[simp] theorem cellReserved_cellByte (d s : Bool) : cellReserved (cellByte d s) = s := by
  cases d <;> cases s <;> rfl

theorem cellByte_lt (d s : Bool) : (cellByte d s).toNat < 4 := by
  cases d <;> cases s <;> decide

/-- A byte without bits 7:2 is the cell of its two bits (R40). -/
theorem cellByte_of_lt {b : Byte} (h : b.toNat < 4) : cellByte (cellDark b) (cellReserved b) = b := by
  have : b = 0 ∨ b = 1 ∨ b = 2 ∨ b = 3 := by
    have h4 : b.toNat = 0 ∨ b.toNat = 1 ∨ b.toNat = 2 ∨ b.toNat = 3 := by omega
    rcases h4 with h | h | h | h
    · exact .inl (BitVec.eq_of_toNat_eq h)
    · exact .inr (.inl (BitVec.eq_of_toNat_eq h))
    · exact .inr (.inr (.inl (BitVec.eq_of_toNat_eq h)))
    · exact .inr (.inr (.inr (BitVec.eq_of_toNat_eq h)))
  rcases this with rfl | rfl | rfl | rfl <;> rfl

/-! ### FRAME <- … -/

theorem mem_frameCells {cell : Nat → Nat → Byte} {e : Host.Cell} :
    e ∈ frameCells cell ↔ ∃ r < 177, ∃ c < 177, e = (cellAddr r c, cell r c) := by
  simp only [frameCells, frameRow, Config.maxWidth, List.mem_flatMap, List.mem_range, List.mem_map]
  constructor
  · rintro ⟨r, hr, c, hc, rfl⟩
    exact ⟨r, hr, c, hc, rfl⟩
  · rintro ⟨r, hr, c, hc, rfl⟩
    exact ⟨r, hr, c, hc, rfl⟩

theorem wf_frameCells (cell : Nat → Nat → Byte) : Memory.wf (frameCells cell) := by
  unfold frameCells frameRow Memory.wf
  rw [List.pairwise_flatMap]
  constructor
  · intro r _
    rw [List.pairwise_map]
    exact List.pairwise_lt_range.imp fun h => by simp only [cellAddr]; omega
  · refine List.pairwise_lt_range.imp fun {r r'} h => ?_
    intro e he f hf
    simp only [Config.maxWidth, List.mem_map, List.mem_range] at he hf
    obtain ⟨c, hc, rfl⟩ := he
    obtain ⟨c', hc', rfl⟩ := hf
    simp only [cellAddr]
    omega

/-- In a canonical memory an entry is what its address reads as. -/
theorem Memory.read_of_mem {m : Memory} (hm : m.wf) {e : Host.Cell} (he : e ∈ m) :
    m.read e.1 = some e.2 := by
  induction m with
  | nil => simp at he
  | cons f m ih =>
    have hm' := List.pairwise_cons.1 hm
    rcases List.mem_cons.1 he with rfl | he
    · simp [Memory.read_cons]
    · have := hm'.1 e he
      rw [Memory.read_cons, if_neg (by omega)]
      exact ih hm'.2 he

theorem Memory.mem_of_read {m : Memory} {a : Nat} {b : Byte} (h : m.read a = some b) : (a, b) ∈ m := by
  induction m with
  | nil => simp at h
  | cons f m ih =>
    rw [Memory.read_cons] at h
    split at h
    · rename_i hf
      simp only [Option.some.injEq] at h
      rw [← hf, ← h]
      simp
    · simp [ih h]

/-- Every cell of the frame store reads as the cell given (R117). -/
theorem read_writeFrame_cell (m : Memory) (cell : Nat → Nat → Byte) {r c : Nat} (hr : r < 177)
    (hc : c < 177) : (m.writeFrame cell).read (cellAddr r c) = some (cell r c) := by
  have h1 : Memory.read (frameCells cell) (cellAddr r c) = some (cell r c) :=
    Memory.read_of_mem (e := (cellAddr r c, cell r c)) (wf_frameCells cell)
      (mem_frameCells.2 ⟨r, hr, c, hc, rfl⟩)
  have h2 := frameBase_le_cellAddr r c
  rw [Memory.writeFrame, Memory.read_append, Memory.read_append,
    Memory.read_filter m (fun k => decide (k < frameBase)), h1]
  simp [show ¬ cellAddr r c < frameBase by omega]

/-- No byte outside the FRAME region changes. -/
theorem read_writeFrame_outside (m : Memory) (cell : Nat → Nat → Byte) {a : Nat}
    (h : a < frameBase ∨ frameEnd ≤ a) : (m.writeFrame cell).read a = m.read a := by
  have h1 : Memory.read (frameCells cell) a = none := by
    refine Memory.read_eq_none fun e he => ?_
    obtain ⟨r, hr, c, hc, rfl⟩ := mem_frameCells.1 he
    have := frameBase_le_cellAddr r c
    have := cellAddr_lt_frameEnd hr (show c < 256 by omega)
    simp only
    omega
  have hb : frameBase < frameEnd := by decide
  rw [Memory.writeFrame, Memory.read_append, Memory.read_append,
    Memory.read_filter m (fun k => decide (k < frameBase)),
    Memory.read_filter m (fun k => decide (frameEnd ≤ k)), h1]
  rcases h with h | h
  · simp [h, show ¬ frameEnd ≤ a by omega]
  · simp [h, show ¬ a < frameBase by omega]

theorem wf_writeFrame {m : Memory} (cell : Nat → Nat → Byte) (hm : m.wf) :
    (m.writeFrame cell).wf := by
  have hb : frameBase < frameEnd := by decide
  refine Memory.wf_append3 (hm.filter _) (wf_frameCells cell) (hm.filter _) ?_ ?_ ?_
  · intro e he f hf
    have h1 : e.1 < frameBase := by simpa using (List.mem_filter.1 he).2
    obtain ⟨r, hr, c, hc, rfl⟩ := mem_frameCells.1 hf
    have := frameBase_le_cellAddr r c
    simp only
    omega
  · intro e he f hf
    obtain ⟨r, hr, c, hc, rfl⟩ := mem_frameCells.1 he
    have h2 : frameEnd ≤ f.1 := by simpa using (List.mem_filter.1 hf).2
    have := cellAddr_lt_frameEnd hr (show c < 256 by omega)
    simp only
    omega
  · intro e he f hf
    have h1 : e.1 < frameBase := by simpa using (List.mem_filter.1 he).2
    have h2 : frameEnd ≤ f.1 := by simpa using (List.mem_filter.1 hf).2
    omega

/-! ### The loops of MASK -/

/-- flipSymbol changes no address, so it keeps the canonical form. -/
theorem map_fst_flipSymbol (m : Memory) (w : Nat) (flip : Nat → Nat → Bool) :
    (flipSymbol m w flip).map Prod.fst = m.map Prod.fst := by
  rw [flipSymbol, List.map_map]
  apply List.map_congr_left
  intro e _
  simp only [Function.comp]
  split <;> rfl

theorem wf_flipSymbol {m : Memory} (w : Nat) (flip : Nat → Nat → Bool) (hm : m.wf) :
    (flipSymbol m w flip).wf := by
  have h : List.Pairwise (· < ·) (m.map Prod.fst) := List.pairwise_map.2 hm
  rw [← map_fst_flipSymbol m w flip] at h
  exact List.pairwise_map.1 h

/-- A cell inside the symbol goes through flipData; every other byte stays (R124). -/
theorem read_flipSymbol (m : Memory) (w : Nat) (flip : Nat → Nat → Bool) (a : Nat) :
    (flipSymbol m w flip).read a =
      if inSymbol w a then
        (m.read a).map (flipData (flip ((a - frameBase) / 256) ((a - frameBase) % 256)))
      else m.read a := by
  induction m with
  | nil => simp [flipSymbol]
  | cons e m ih =>
    have h : flipSymbol (e :: m) w flip =
        (if inSymbol w e.1 then
          (e.1, flipData (flip ((e.1 - frameBase) / 256) ((e.1 - frameBase) % 256)) e.2)
        else e) :: flipSymbol m w flip := rfl
    rw [h, Memory.read_cons, Memory.read_cons, ih]
    by_cases ha : e.1 = a
    · subst ha
      by_cases hs : inSymbol w e.1 = true <;> simp [hs]
    · by_cases hs : inSymbol w e.1 = true <;> simp [hs, ha]

/-- The cells of R124's loops are those of rows and columns below W. -/
theorem inSymbol_cellAddr (w r c : Nat) (hc : c < 256) :
    inSymbol w (cellAddr r c) = (decide (r < w) && decide (c < w)) := by
  rw [inSymbol, cellAddr_row r c hc, cellAddr_col r c hc]
  simp [frameBase_le_cellAddr r c]

theorem symbolWritten_iff {m : Memory} {w : Nat} :
    symbolWritten m w = true ↔ ∀ r < w, ∀ c < w, (m.read (cellAddr r c)).isSome := by
  simp [symbolWritten]

/-! ### Writes of several cells -/

theorem wf_placeBits {m : Memory} (cells : List Cursor) (bits : List Bool) (hm : m.wf) :
    (placeBits m cells bits).wf := by
  unfold placeBits
  generalize cells.zip bits = l
  induction l generalizing m with
  | nil => exact hm
  | cons p l ih => exact ih (Memory.wf_write _ _ hm)

/-- A byte that is no cell placed stays. -/
theorem read_placeBits_ne {m : Memory} (cells : List Cursor) (bits : List Bool) {a : Nat}
    (hm : m.wf) (h : ∀ s ∈ cells, cellAddr s.r s.c ≠ a) :
    (placeBits m cells bits).read a = m.read a := by
  have key : ∀ (l : List (Cursor × Bool)) (m : Memory), m.wf → (∀ p ∈ l, cellAddr p.1.r p.1.c ≠ a) →
      (l.foldl (fun m p => m.write (cellAddr p.1.r p.1.c) (cellByte p.2 false)) m).read a =
        m.read a := by
    intro l
    induction l with
    | nil => intros; rfl
    | cons p l ih =>
      intro m hm hl
      rw [List.foldl_cons, ih _ (Memory.wf_write _ _ hm) fun q hq => hl q (by simp [hq]),
        Memory.read_write_ne m _ hm (hl p (by simp))]
  exact key _ m hm fun p hp => h p.1 (List.of_mem_zip hp).1

theorem wf_writeFormatBit {m : Memory} (w : Nat) (f : BitVec 15) (i : Nat) (hm : m.wf) :
    (writeFormatBit w f m i).wf :=
  Memory.wf_write _ _ (Memory.wf_write _ _ hm)

theorem wf_writeFormat {m : Memory} (w : Nat) (f : BitVec 15) (hm : m.wf) : (writeFormat m w f).wf := by
  unfold writeFormat
  generalize List.range 15 = l
  induction l generalizing m with
  | nil => exact hm
  | cons i l ih => exact ih (wf_writeFormatBit w f i hm)

/-- A byte that is none of the 30 cells of R123 stays. -/
theorem read_writeFormat_ne {m : Memory} (w : Nat) (f : BitVec 15) {a : Nat} (hm : m.wf)
    (h : ∀ i < 15, cellAddr (formatCell1 i).1 (formatCell1 i).2 ≠ a ∧
      cellAddr (formatCell2 w i).1 (formatCell2 w i).2 ≠ a) :
    (writeFormat m w f).read a = m.read a := by
  have key : ∀ (l : List Nat) (m : Memory), m.wf → (∀ i ∈ l, i < 15) →
      (l.foldl (writeFormatBit w f) m).read a = m.read a := by
    intro l
    induction l with
    | nil => intros; rfl
    | cons i l ih =>
      intro m hm hl
      have hi := h i (hl i (by simp))
      rw [List.foldl_cons, ih _ (wf_writeFormatBit w f i hm) fun j hj => hl j (by simp [hj])]
      unfold writeFormatBit
      rw [Memory.read_write_ne _ _ (Memory.wf_write _ _ hm) hi.2, Memory.read_write_ne _ _ hm hi.1]
  exact key _ m hm fun i hi => List.mem_range.1 hi

end Sys2Proof.Machine
end

