-- ==== Sys2Proof/Laws/Ops.lean ====
section
/-! SUPPORT. What each shared operation answers, said once. -/

namespace Sys2Proof.Machine

open Sys2Proof

@[simp] theorem succeed_eq_next {s t : State} : succeed s = .next t ↔ s.complete = t := by
  simp [succeed]

@[simp] theorem raiseError_eq_next {c : ErrCode} {s t : State} :
    raiseError c s = .next t ↔ s.fail c = t := by
  simp [raiseError]

@[simp] theorem succeed_ne_fault {s : State} {f : Fault} : succeed s ≠ .fault f := by
  simp [succeed]

@[simp] theorem raiseError_ne_fault {c : ErrCode} {s : State} {f : Fault} :
    raiseError c s ≠ .fault f := by
  simp [raiseError]

@[simp] theorem succeed_ne_refused {s : State} {r : Refusal} : succeed s ≠ .refused r := by
  simp [succeed]

@[simp] theorem raiseError_ne_refused {c : ErrCode} {s : State} {r : Refusal} :
    raiseError c s ≠ .refused r := by
  simp [raiseError]

/-- A checked read goes on to a next state only with a value that is there. -/
theorem withRead_eq_next {α : Type} {o : Option α} {k : α → Result} {t : State}
    (h : withRead o k = .next t) : ∃ x, o = some x ∧ k x = .next t := by
  cases o with
  | none => simp [withRead] at h
  | some x => exact ⟨x, rfl, h⟩

@[simp] theorem withRead_some {α : Type} (x : α) (k : α → Result) : withRead (some x) k = k x := rfl

@[simp] theorem withRead_none {α : Type} (k : α → Result) :
    withRead none k = .fault .unwrittenRead := rfl

/-- Only success has the code 0 (R125). -/
@[simp] theorem errCode_eq_zero {c : ErrCode} : c.code = 0#4 ↔ c = .ok := by
  cases c <;> decide

/-- The numbers of R125 tell the codes apart. -/
theorem errCode_injective {c d : ErrCode} (h : c.code = d.code) : c = d := by
  cases c <;> cases d <;> first | rfl | exact absurd h (by decide)

/-- The two ends of the Engine's step: a command, or IllegalCommand (R63). -/
theorem engineStep_of_decode {s : State} {i : Instr} (h : decode s.cmd = .ok i) :
    engineStep s = exec i s := by
  rw [engineStep, h]

theorem engineStep_of_error {s : State} {e : DecodeError} (h : decode s.cmd = .error e) :
    engineStep s = .next (s.fail .illegalCommand) := by
  rw [engineStep, h]
  rfl

/-- Which of the two agents a step is of. -/
theorem step_of_busy {s : State} (h : s.busy = true) : step s = busyStep s := by
  rw [step, machineStep, if_pos h]

theorem step_of_idle {s : State} (h : s.busy = false) : step s = idleStep s := by
  rw [step, machineStep, if_neg (by simp [h])]

end Sys2Proof.Machine
end

