-- ==== Sys2Proof/Laws/PerInstr.lean ====
section
/-! SUPPORT. A law of every command word, one lemma per constructor: the opcode stands in bits 31:24 and no
reserved bit of the format is set (30_encoding.md R56, R57, R63). -/

namespace Sys2Proof.Laws.Encoding

open Sys2Proof

/-- The word of a command carries its opcode in bits 31:24, and every reserved bit of its format is 0. -/
def Statement (i : Instr) : Prop :=
  opField (encode i) = i.opcode.code ∧ encode i &&& i.opcode.format.reservedMask = 0#32

/-- What is left of an encoding to check: its operand bits against the reserved bits 23:0 of its format. -/
theorem of_operandBits {i : Instr} (m : BitVec 24) (hm : i.opcode.format.reservedMask = 0#8 ++ m)
    (h : i.operandBits &&& m = 0#24) : Statement i := by
  refine ⟨BitVec.extractLsb'_append_eq_left, ?_⟩
  rw [hm, encode, BitVec.and_append, h, BitVec.and_zero]
  rfl

theorem nop : Statement .nop := of_operandBits 0xFFFFFF#24 rfl rfl

theorem softReset : Statement .softReset := of_operandBits 0xFFFFFF#24 rfl rfl

theorem selClear : Statement .selClear := of_operandBits 0xFFFFFF#24 rfl rfl

/-- The fields of format S (R57). -/
theorem format_s (mode : BitVec 3) (count : BitVec 16) : 0#5 ++ mode ++ count &&& 0x1F#5 ++ 0#3 ++ 0#16 = 0#24 := by
  simp only [BitVec.and_append, BitVec.and_zero]
  rfl

theorem selAdd (mode : BitVec 3) (count : BitVec 16) : Statement (.selAdd mode count) :=
  of_operandBits (0x1F#5 ++ 0#3 ++ 0#16) rfl (format_s mode count)

/-- The fields of format V (R57). -/
theorem format_v (version : BitVec 6) (level : BitVec 2) :
    0#10 ++ version ++ 0#6 ++ level &&& 0x3FF#10 ++ 0#6 ++ 0x3F#6 ++ 0#2 = 0#24 := by
  simp only [BitVec.and_append, BitVec.and_zero]
  rfl

theorem selRun (version : BitVec 6) (level : BitVec 2) : Statement (.selRun version level) :=
  of_operandBits (0x3FF#10 ++ 0#6 ++ 0x3F#6 ++ 0#2) rfl (format_v version level)

theorem specQuery (version : BitVec 6) (level : BitVec 2) : Statement (.specQuery version level) :=
  of_operandBits (0x3FF#10 ++ 0#6 ++ 0x3F#6 ++ 0#2) rfl (format_v version level)

/-- The fields of format G (R57). -/
theorem format_g (n : Byte) : 0#16 ++ n &&& 0xFFFF#16 ++ 0#8 = 0#24 := by
  simp only [BitVec.and_append, BitVec.and_zero]
  rfl

theorem genPoly (n : Byte) : Statement (.genPoly n) :=
  of_operandBits (0xFFFF#16 ++ 0#8) rfl (format_g n)

/-- The fields of format K (R57). -/
theorem format_k (k n : Byte) : 0#8 ++ k ++ n &&& 0xFF#8 ++ 0#8 ++ 0#8 = 0#24 := by
  simp only [BitVec.and_append, BitVec.and_zero]
  rfl

theorem rsEncode (k n : Byte) : Statement (.rsEncode k n) :=
  of_operandBits (0xFF#8 ++ 0#8 ++ 0#8) rfl (format_k k n)

theorem assemble : Statement .assemble := of_operandBits 0xFFFFFF#24 rfl rfl

theorem cwReset : Statement .cwReset := of_operandBits 0xFFFFFF#24 rfl rfl

theorem cwNext : Statement .cwNext := of_operandBits 0xFFFFFF#24 rfl rfl

theorem frameInit : Statement .frameInit := of_operandBits 0xFFFFFF#24 rfl rfl

theorem fillReset : Statement .fillReset := of_operandBits 0xFFFFFF#24 rfl rfl

theorem fillNext : Statement .fillNext := of_operandBits 0xFFFFFF#24 rfl rfl

theorem frameFill : Statement .frameFill := of_operandBits 0xFFFFFF#24 rfl rfl

/-- The fields of format M (R57). -/
theorem format_m (m : BitVec 3) : 0#21 ++ m &&& 0x1FFFFF#21 ++ 0#3 = 0#24 := by
  simp only [BitVec.and_append, BitVec.and_zero]
  rfl

theorem mask (m : BitVec 3) : Statement (.mask m) :=
  of_operandBits (0x1FFFFF#21 ++ 0#3) rfl (format_m m)

end Sys2Proof.Laws.Encoding
end

