-- ==== Sys2Proof/Laws/State.lean ====
section
/-! SUPPORT. One lemma for each field of each named update of State, all by rfl, so that no later proof
unfolds a record update. -/

namespace Sys2Proof.Machine

open Sys2Proof

@[simp] theorem State.complete_cmd (s : State) : s.complete.cmd = s.cmd := rfl
@[simp] theorem State.complete_busy (s : State) : s.complete.busy = false := rfl
@[simp] theorem State.complete_err (s : State) : s.complete.err = s.err := rfl
@[simp] theorem State.complete_specValid (s : State) : s.complete.specValid = s.specValid := rfl
@[simp] theorem State.complete_frameStage (s : State) : s.complete.frameStage = s.frameStage := rfl
@[simp] theorem State.complete_errcode (s : State) : s.complete.errcode = 0#4 := rfl
@[simp] theorem State.complete_segments (s : State) : s.complete.segments = s.segments := rfl
@[simp] theorem State.complete_spec (s : State) : s.complete.spec = s.spec := rfl
@[simp] theorem State.complete_reqBits (s : State) : s.complete.reqBits = s.reqBits := rfl
@[simp] theorem State.complete_frameVersion (s : State) : s.complete.frameVersion = s.frameVersion := rfl
@[simp] theorem State.complete_maskCur (s : State) : s.complete.maskCur = s.maskCur := rfl
@[simp] theorem State.complete_formatBits (s : State) : s.complete.formatBits = s.formatBits := rfl
@[simp] theorem State.complete_versionBits (s : State) : s.complete.versionBits = s.versionBits := rfl
@[simp] theorem State.complete_fillPos (s : State) : s.complete.fillPos = s.fillPos := rfl
@[simp] theorem State.complete_cwIndex (s : State) : s.complete.cwIndex = s.cwIndex := rfl
@[simp] theorem State.complete_cwOut (s : State) : s.complete.cwOut = s.cwOut := rfl
@[simp] theorem State.complete_genDegree (s : State) : s.complete.genDegree = s.genDegree := rfl
@[simp] theorem State.complete_mem (s : State) : s.complete.mem = s.mem := rfl
@[simp] theorem State.complete_params (s : State) : s.complete.params = s.params := rfl
@[simp] theorem State.complete_port (s : State) : s.complete.port = s.port := rfl
@[simp] theorem State.complete_replies (s : State) : s.complete.replies = s.replies := rfl
@[simp] theorem State.complete_busyLeft (s : State) : s.complete.busyLeft = 0 := rfl
@[simp] theorem State.complete_draws (s : State) : s.complete.draws = s.draws := rfl

@[simp] theorem State.fail_cmd (s : State) (c : ErrCode) : (s.fail c).cmd = s.cmd := rfl
@[simp] theorem State.fail_busy (s : State) (c : ErrCode) : (s.fail c).busy = false := rfl
@[simp] theorem State.fail_err (s : State) (c : ErrCode) : (s.fail c).err = true := rfl
@[simp] theorem State.fail_specValid (s : State) (c : ErrCode) : (s.fail c).specValid = s.specValid := rfl
@[simp] theorem State.fail_frameStage (s : State) (c : ErrCode) : (s.fail c).frameStage = s.frameStage := rfl
@[simp] theorem State.fail_errcode (s : State) (c : ErrCode) : (s.fail c).errcode = c.code := rfl
@[simp] theorem State.fail_segments (s : State) (c : ErrCode) : (s.fail c).segments = s.segments := rfl
@[simp] theorem State.fail_spec (s : State) (c : ErrCode) : (s.fail c).spec = s.spec := rfl
@[simp] theorem State.fail_reqBits (s : State) (c : ErrCode) : (s.fail c).reqBits = s.reqBits := rfl
@[simp] theorem State.fail_frameVersion (s : State) (c : ErrCode) : (s.fail c).frameVersion = s.frameVersion := rfl
@[simp] theorem State.fail_maskCur (s : State) (c : ErrCode) : (s.fail c).maskCur = s.maskCur := rfl
@[simp] theorem State.fail_formatBits (s : State) (c : ErrCode) : (s.fail c).formatBits = s.formatBits := rfl
@[simp] theorem State.fail_versionBits (s : State) (c : ErrCode) : (s.fail c).versionBits = s.versionBits := rfl
@[simp] theorem State.fail_fillPos (s : State) (c : ErrCode) : (s.fail c).fillPos = s.fillPos := rfl
@[simp] theorem State.fail_cwIndex (s : State) (c : ErrCode) : (s.fail c).cwIndex = s.cwIndex := rfl
@[simp] theorem State.fail_cwOut (s : State) (c : ErrCode) : (s.fail c).cwOut = s.cwOut := rfl
@[simp] theorem State.fail_genDegree (s : State) (c : ErrCode) : (s.fail c).genDegree = s.genDegree := rfl
@[simp] theorem State.fail_mem (s : State) (c : ErrCode) : (s.fail c).mem = s.mem := rfl
@[simp] theorem State.fail_params (s : State) (c : ErrCode) : (s.fail c).params = s.params := rfl
@[simp] theorem State.fail_port (s : State) (c : ErrCode) : (s.fail c).port = s.port := rfl
@[simp] theorem State.fail_replies (s : State) (c : ErrCode) : (s.fail c).replies = s.replies := rfl
@[simp] theorem State.fail_busyLeft (s : State) (c : ErrCode) : (s.fail c).busyLeft = 0 := rfl
@[simp] theorem State.fail_draws (s : State) (c : ErrCode) : (s.fail c).draws = s.draws := rfl

@[simp] theorem State.loadSpec_cmd (s : State) (v l : Nat) : (s.loadSpec v l).cmd = s.cmd := rfl
@[simp] theorem State.loadSpec_busy (s : State) (v l : Nat) : (s.loadSpec v l).busy = s.busy := rfl
@[simp] theorem State.loadSpec_err (s : State) (v l : Nat) : (s.loadSpec v l).err = s.err := rfl
@[simp] theorem State.loadSpec_specValid (s : State) (v l : Nat) : (s.loadSpec v l).specValid = true := rfl
@[simp] theorem State.loadSpec_frameStage (s : State) (v l : Nat) : (s.loadSpec v l).frameStage = s.frameStage := rfl
@[simp] theorem State.loadSpec_errcode (s : State) (v l : Nat) : (s.loadSpec v l).errcode = s.errcode := rfl
@[simp] theorem State.loadSpec_segments (s : State) (v l : Nat) : (s.loadSpec v l).segments = s.segments := rfl
@[simp] theorem State.loadSpec_spec (s : State) (v l : Nat) : (s.loadSpec v l).spec = SpecRegs.of v l := rfl
@[simp] theorem State.loadSpec_reqBits (s : State) (v l : Nat) : (s.loadSpec v l).reqBits = s.reqBits := rfl
@[simp] theorem State.loadSpec_frameVersion (s : State) (v l : Nat) : (s.loadSpec v l).frameVersion = s.frameVersion := rfl
@[simp] theorem State.loadSpec_maskCur (s : State) (v l : Nat) : (s.loadSpec v l).maskCur = s.maskCur := rfl
@[simp] theorem State.loadSpec_formatBits (s : State) (v l : Nat) : (s.loadSpec v l).formatBits = s.formatBits := rfl
@[simp] theorem State.loadSpec_versionBits (s : State) (v l : Nat) : (s.loadSpec v l).versionBits = s.versionBits := rfl
@[simp] theorem State.loadSpec_fillPos (s : State) (v l : Nat) : (s.loadSpec v l).fillPos = s.fillPos := rfl
@[simp] theorem State.loadSpec_cwIndex (s : State) (v l : Nat) : (s.loadSpec v l).cwIndex = s.cwIndex := rfl
@[simp] theorem State.loadSpec_cwOut (s : State) (v l : Nat) : (s.loadSpec v l).cwOut = s.cwOut := rfl
@[simp] theorem State.loadSpec_genDegree (s : State) (v l : Nat) : (s.loadSpec v l).genDegree = s.genDegree := rfl
@[simp] theorem State.loadSpec_mem (s : State) (v l : Nat) : (s.loadSpec v l).mem = s.mem := rfl
@[simp] theorem State.loadSpec_params (s : State) (v l : Nat) : (s.loadSpec v l).params = s.params := rfl
@[simp] theorem State.loadSpec_port (s : State) (v l : Nat) : (s.loadSpec v l).port = s.port := rfl
@[simp] theorem State.loadSpec_replies (s : State) (v l : Nat) : (s.loadSpec v l).replies = s.replies := rfl
@[simp] theorem State.loadSpec_busyLeft (s : State) (v l : Nat) : (s.loadSpec v l).busyLeft = s.busyLeft := rfl
@[simp] theorem State.loadSpec_draws (s : State) (v l : Nat) : (s.loadSpec v l).draws = s.draws := rfl

@[simp] theorem State.reply_cmd (s : State) (v : Word) : (s.reply v).cmd = s.cmd := rfl
@[simp] theorem State.reply_busy (s : State) (v : Word) : (s.reply v).busy = s.busy := rfl
@[simp] theorem State.reply_err (s : State) (v : Word) : (s.reply v).err = s.err := rfl
@[simp] theorem State.reply_specValid (s : State) (v : Word) : (s.reply v).specValid = s.specValid := rfl
@[simp] theorem State.reply_frameStage (s : State) (v : Word) : (s.reply v).frameStage = s.frameStage := rfl
@[simp] theorem State.reply_errcode (s : State) (v : Word) : (s.reply v).errcode = s.errcode := rfl
@[simp] theorem State.reply_segments (s : State) (v : Word) : (s.reply v).segments = s.segments := rfl
@[simp] theorem State.reply_spec (s : State) (v : Word) : (s.reply v).spec = s.spec := rfl
@[simp] theorem State.reply_reqBits (s : State) (v : Word) : (s.reply v).reqBits = s.reqBits := rfl
@[simp] theorem State.reply_frameVersion (s : State) (v : Word) : (s.reply v).frameVersion = s.frameVersion := rfl
@[simp] theorem State.reply_maskCur (s : State) (v : Word) : (s.reply v).maskCur = s.maskCur := rfl
@[simp] theorem State.reply_formatBits (s : State) (v : Word) : (s.reply v).formatBits = s.formatBits := rfl
@[simp] theorem State.reply_versionBits (s : State) (v : Word) : (s.reply v).versionBits = s.versionBits := rfl
@[simp] theorem State.reply_fillPos (s : State) (v : Word) : (s.reply v).fillPos = s.fillPos := rfl
@[simp] theorem State.reply_cwIndex (s : State) (v : Word) : (s.reply v).cwIndex = s.cwIndex := rfl
@[simp] theorem State.reply_cwOut (s : State) (v : Word) : (s.reply v).cwOut = s.cwOut := rfl
@[simp] theorem State.reply_genDegree (s : State) (v : Word) : (s.reply v).genDegree = s.genDegree := rfl
@[simp] theorem State.reply_mem (s : State) (v : Word) : (s.reply v).mem = s.mem := rfl
@[simp] theorem State.reply_params (s : State) (v : Word) : (s.reply v).params = s.params := rfl
@[simp] theorem State.reply_port (s : State) (v : Word) : (s.reply v).port = s.port := rfl
@[simp] theorem State.reply_replies (s : State) (v : Word) : (s.reply v).replies = v :: s.replies := rfl
@[simp] theorem State.reply_busyLeft (s : State) (v : Word) : (s.reply v).busyLeft = s.busyLeft := rfl
@[simp] theorem State.reply_draws (s : State) (v : Word) : (s.reply v).draws = s.draws := rfl

@[simp] theorem State.issue_cmd (s : State) (w : Word) : (s.issue w).cmd = w := rfl
@[simp] theorem State.issue_busy (s : State) (w : Word) : (s.issue w).busy = true := rfl
@[simp] theorem State.issue_err (s : State) (w : Word) : (s.issue w).err = s.err := rfl
@[simp] theorem State.issue_specValid (s : State) (w : Word) : (s.issue w).specValid = s.specValid := rfl
@[simp] theorem State.issue_frameStage (s : State) (w : Word) : (s.issue w).frameStage = s.frameStage := rfl
@[simp] theorem State.issue_errcode (s : State) (w : Word) : (s.issue w).errcode = s.errcode := rfl
@[simp] theorem State.issue_segments (s : State) (w : Word) : (s.issue w).segments = s.segments := rfl
@[simp] theorem State.issue_spec (s : State) (w : Word) : (s.issue w).spec = s.spec := rfl
@[simp] theorem State.issue_reqBits (s : State) (w : Word) : (s.issue w).reqBits = s.reqBits := rfl
@[simp] theorem State.issue_frameVersion (s : State) (w : Word) : (s.issue w).frameVersion = s.frameVersion := rfl
@[simp] theorem State.issue_maskCur (s : State) (w : Word) : (s.issue w).maskCur = s.maskCur := rfl
@[simp] theorem State.issue_formatBits (s : State) (w : Word) : (s.issue w).formatBits = s.formatBits := rfl
@[simp] theorem State.issue_versionBits (s : State) (w : Word) : (s.issue w).versionBits = s.versionBits := rfl
@[simp] theorem State.issue_fillPos (s : State) (w : Word) : (s.issue w).fillPos = s.fillPos := rfl
@[simp] theorem State.issue_cwIndex (s : State) (w : Word) : (s.issue w).cwIndex = s.cwIndex := rfl
@[simp] theorem State.issue_cwOut (s : State) (w : Word) : (s.issue w).cwOut = s.cwOut := rfl
@[simp] theorem State.issue_genDegree (s : State) (w : Word) : (s.issue w).genDegree = s.genDegree := rfl
@[simp] theorem State.issue_mem (s : State) (w : Word) : (s.issue w).mem = s.mem := rfl
@[simp] theorem State.issue_params (s : State) (w : Word) : (s.issue w).params = s.params := rfl
@[simp] theorem State.issue_port (s : State) (w : Word) : (s.issue w).port = s.port := rfl
@[simp] theorem State.issue_replies (s : State) (w : Word) : (s.issue w).replies = s.replies := rfl
@[simp] theorem State.issue_busyLeft (s : State) (w : Word) : (s.issue w).busyLeft = Config.latency s.draws := rfl
@[simp] theorem State.issue_draws (s : State) (w : Word) : (s.issue w).draws = s.draws + 1 := rfl

@[simp] theorem State.withCommand_cmd (s : State) (w : Word) : (s.withCommand w).cmd = w := rfl
@[simp] theorem State.withCommand_busy (s : State) (w : Word) : (s.withCommand w).busy = true := rfl
@[simp] theorem State.withCommand_err (s : State) (w : Word) : (s.withCommand w).err = s.err := rfl
@[simp] theorem State.withCommand_specValid (s : State) (w : Word) : (s.withCommand w).specValid = s.specValid := rfl
@[simp] theorem State.withCommand_frameStage (s : State) (w : Word) : (s.withCommand w).frameStage = s.frameStage := rfl
@[simp] theorem State.withCommand_errcode (s : State) (w : Word) : (s.withCommand w).errcode = s.errcode := rfl
@[simp] theorem State.withCommand_segments (s : State) (w : Word) : (s.withCommand w).segments = s.segments := rfl
@[simp] theorem State.withCommand_spec (s : State) (w : Word) : (s.withCommand w).spec = s.spec := rfl
@[simp] theorem State.withCommand_reqBits (s : State) (w : Word) : (s.withCommand w).reqBits = s.reqBits := rfl
@[simp] theorem State.withCommand_frameVersion (s : State) (w : Word) : (s.withCommand w).frameVersion = s.frameVersion := rfl
@[simp] theorem State.withCommand_maskCur (s : State) (w : Word) : (s.withCommand w).maskCur = s.maskCur := rfl
@[simp] theorem State.withCommand_formatBits (s : State) (w : Word) : (s.withCommand w).formatBits = s.formatBits := rfl
@[simp] theorem State.withCommand_versionBits (s : State) (w : Word) : (s.withCommand w).versionBits = s.versionBits := rfl
@[simp] theorem State.withCommand_fillPos (s : State) (w : Word) : (s.withCommand w).fillPos = s.fillPos := rfl
@[simp] theorem State.withCommand_cwIndex (s : State) (w : Word) : (s.withCommand w).cwIndex = s.cwIndex := rfl
@[simp] theorem State.withCommand_cwOut (s : State) (w : Word) : (s.withCommand w).cwOut = s.cwOut := rfl
@[simp] theorem State.withCommand_genDegree (s : State) (w : Word) : (s.withCommand w).genDegree = s.genDegree := rfl
@[simp] theorem State.withCommand_mem (s : State) (w : Word) : (s.withCommand w).mem = s.mem := rfl
@[simp] theorem State.withCommand_params (s : State) (w : Word) : (s.withCommand w).params = s.params := rfl
@[simp] theorem State.withCommand_port (s : State) (w : Word) : (s.withCommand w).port = [] := rfl
@[simp] theorem State.withCommand_replies (s : State) (w : Word) : (s.withCommand w).replies = s.replies := rfl
@[simp] theorem State.withCommand_busyLeft (s : State) (w : Word) : (s.withCommand w).busyLeft = 0 := rfl
@[simp] theorem State.withCommand_draws (s : State) (w : Word) : (s.withCommand w).draws = s.draws := rfl

@[simp] theorem resetRegisters_cmd (s : State) : (resetRegisters s).cmd = 0#32 := rfl
@[simp] theorem resetRegisters_busy (s : State) : (resetRegisters s).busy = false := rfl
@[simp] theorem resetRegisters_err (s : State) : (resetRegisters s).err = false := rfl
@[simp] theorem resetRegisters_specValid (s : State) : (resetRegisters s).specValid = false := rfl
@[simp] theorem resetRegisters_frameStage (s : State) : (resetRegisters s).frameStage = .none := rfl
@[simp] theorem resetRegisters_errcode (s : State) : (resetRegisters s).errcode = 0#4 := rfl
@[simp] theorem resetRegisters_segments (s : State) : (resetRegisters s).segments = [] := rfl
@[simp] theorem resetRegisters_spec (s : State) : (resetRegisters s).spec = .zero := rfl
@[simp] theorem resetRegisters_reqBits (s : State) : (resetRegisters s).reqBits = 0#15 := rfl
@[simp] theorem resetRegisters_frameVersion (s : State) : (resetRegisters s).frameVersion = 0#6 := rfl
@[simp] theorem resetRegisters_maskCur (s : State) : (resetRegisters s).maskCur = 0#3 := rfl
@[simp] theorem resetRegisters_formatBits (s : State) : (resetRegisters s).formatBits = 0#15 := rfl
@[simp] theorem resetRegisters_versionBits (s : State) : (resetRegisters s).versionBits = 0#18 := rfl
@[simp] theorem resetRegisters_fillPos (s : State) : (resetRegisters s).fillPos = .zero := rfl
@[simp] theorem resetRegisters_cwIndex (s : State) : (resetRegisters s).cwIndex = 0#12 := rfl
@[simp] theorem resetRegisters_cwOut (s : State) : (resetRegisters s).cwOut = 0#8 := rfl
@[simp] theorem resetRegisters_genDegree (s : State) : (resetRegisters s).genDegree = 0#9 := rfl
@[simp] theorem resetRegisters_mem (s : State) : (resetRegisters s).mem = s.mem := rfl
@[simp] theorem resetRegisters_params (s : State) : (resetRegisters s).params = s.params := rfl
@[simp] theorem resetRegisters_port (s : State) : (resetRegisters s).port = s.port := rfl
@[simp] theorem resetRegisters_replies (s : State) : (resetRegisters s).replies = s.replies := rfl
@[simp] theorem resetRegisters_busyLeft (s : State) : (resetRegisters s).busyLeft = 0 := rfl
@[simp] theorem resetRegisters_draws (s : State) : (resetRegisters s).draws = s.draws := rfl

@[simp] theorem writeStatus_cmd (s : State) (v : Word) : (writeStatus s v).cmd = s.cmd := rfl
@[simp] theorem writeStatus_busy (s : State) (v : Word) : (writeStatus s v).busy = s.busy := rfl
@[simp] theorem writeStatus_err (s : State) (v : Word) : (writeStatus s v).err = (s.err && !v.getLsbD 1) := rfl
@[simp] theorem writeStatus_specValid (s : State) (v : Word) : (writeStatus s v).specValid = s.specValid := rfl
@[simp] theorem writeStatus_frameStage (s : State) (v : Word) : (writeStatus s v).frameStage = s.frameStage := rfl
@[simp] theorem writeStatus_errcode (s : State) (v : Word) : (writeStatus s v).errcode = s.errcode := rfl
@[simp] theorem writeStatus_segments (s : State) (v : Word) : (writeStatus s v).segments = s.segments := rfl
@[simp] theorem writeStatus_spec (s : State) (v : Word) : (writeStatus s v).spec = s.spec := rfl
@[simp] theorem writeStatus_reqBits (s : State) (v : Word) : (writeStatus s v).reqBits = s.reqBits := rfl
@[simp] theorem writeStatus_frameVersion (s : State) (v : Word) : (writeStatus s v).frameVersion = s.frameVersion := rfl
@[simp] theorem writeStatus_maskCur (s : State) (v : Word) : (writeStatus s v).maskCur = s.maskCur := rfl
@[simp] theorem writeStatus_formatBits (s : State) (v : Word) : (writeStatus s v).formatBits = s.formatBits := rfl
@[simp] theorem writeStatus_versionBits (s : State) (v : Word) : (writeStatus s v).versionBits = s.versionBits := rfl
@[simp] theorem writeStatus_fillPos (s : State) (v : Word) : (writeStatus s v).fillPos = s.fillPos := rfl
@[simp] theorem writeStatus_cwIndex (s : State) (v : Word) : (writeStatus s v).cwIndex = s.cwIndex := rfl
@[simp] theorem writeStatus_cwOut (s : State) (v : Word) : (writeStatus s v).cwOut = s.cwOut := rfl
@[simp] theorem writeStatus_genDegree (s : State) (v : Word) : (writeStatus s v).genDegree = s.genDegree := rfl
@[simp] theorem writeStatus_mem (s : State) (v : Word) : (writeStatus s v).mem = s.mem := rfl
@[simp] theorem writeStatus_params (s : State) (v : Word) : (writeStatus s v).params = s.params := rfl
@[simp] theorem writeStatus_port (s : State) (v : Word) : (writeStatus s v).port = s.port := rfl
@[simp] theorem writeStatus_replies (s : State) (v : Word) : (writeStatus s v).replies = s.replies := rfl
@[simp] theorem writeStatus_busyLeft (s : State) (v : Word) : (writeStatus s v).busyLeft = s.busyLeft := rfl
@[simp] theorem writeStatus_draws (s : State) (v : Word) : (writeStatus s v).draws = s.draws := rfl

end Sys2Proof.Machine
end

