-- ==== Sys2Proof/Tests/Slice0.lean ====
section
/-! SUPPORT. The model's own tests. Expected values come from spec/95_test_vectors.md and the examples of the
command rules, not from the model. The second half gives, for each obligation with hypotheses, a state and
operands that meet them together. -/

namespace Sys2Proof.Tests

-- One proof at a time: many kernel evaluations at once ask for more threads than the memory limit has.
set_option Elab.async false

open Sys2Proof Sys2Proof.Machine

/-! ### Helpers -/

/-- The next state, if the outcome is one. -/
def after : Result → Option State
  | .next t => some t
  | .fault _ => none
  | .refused _ => none

/-- The fault, if the outcome is one. -/
def stops : Result → Option Fault
  | .next _ => none
  | .fault f => some f
  | .refused _ => none

/-- The code a command ends with. -/
def codeOf (i : Instr) (s : State) : Option (BitVec 4) := (after (exec i s)).map fun t => t.errcode

/-- A state with the EC Spec of (v, l) loaded. -/
def ready (v l : Nat) : State := State.reset.loadSpec v l

/-- The Host has loaded bytes from an address on. -/
def loaded (base : Nat) (bs : List Byte) (s : State) : State :=
  { s with mem := s.mem.writeRange base bs }

/-- The first n bytes at an address after a command. -/
def bytesAfter (i : Instr) (s : State) (base n : Nat) : Option (List Byte) :=
  (after (exec i s)).bind fun t => t.mem.readRange base n

/-- The cells of a symbol of version 1. -/
def symbol1 (cell : Nat → Nat → Byte) : Memory :=
  (List.range 21).flatMap fun r => (List.range 21).map fun c => (cellAddr r c, cell r c)

/-- Version 1, level L, the skeleton in the frame store at the given stage. -/
def framed (stage : FrameStage) : State :=
  { ready 1 0 with frameStage := stage, frameVersion := 1, mem := symbol1 (skeleton 1) }

/-- A state with the Host's accesses waiting at the port. -/
def facing (port : List HostAction) (s : State) : State := { s with port := port }

/-- Program P1's data codewords (95_test_vectors.md Part 3). -/
def dataP1 : List Byte :=
  [0x10, 0x1F, 0x63, 0x84, 0xA4, 0x00, 0xEC, 0x11, 0xEC, 0x11, 0xEC, 0x11, 0xEC, 0x11, 0xEC, 0x11, 0xEC,
   0x11, 0xEC]

/-- Program P1's ecc codewords. -/
def eccP1 : List Byte := [0x43, 0x64, 0xBC, 0xFE, 0xD6, 0xF3, 0xE0]

/-- P1 before ASSEMBLE. -/
def p1 : State := loaded dataBase dataP1 (ready 1 0)

/-- The standard's example block (95_test_vectors.md S11). -/
def dataS11 : List Byte :=
  [0x10, 0x20, 0x0C, 0x56, 0x61, 0x80, 0xEC, 0x11, 0xEC, 0x11, 0xEC, 0x11, 0xEC, 0x11, 0xEC, 0x11]

/-! ### WellFormed: one ill-formed term for each check, refused -/

theorem test_wf_mode_4 : (Instr.selAdd 4 1).wellFormed = false := by decide

theorem test_wf_run_version_41 : (Instr.selRun 41 0).wellFormed = false := by decide

theorem test_wf_query_version_0 : (Instr.specQuery 0 0).wellFormed = false := by decide

theorem test_wf_query_version_41 : (Instr.specQuery 41 0).wellFormed = false := by decide

theorem test_wf_generator_0 : (Instr.genPoly 0).wellFormed = false := by decide

theorem test_wf_block_n_0 : (Instr.rsEncode 0 0).wellFormed = false := by decide

theorem test_wf_block_256 : (Instr.rsEncode 255 1).wellFormed = false := by decide

theorem test_wf_legal_bounds :
    (Instr.selAdd 3 0xFFFF).wellFormed = true ∧ (Instr.selRun 0 3).wellFormed = true ∧
      (Instr.selRun 40 3).wellFormed = true ∧ (Instr.specQuery 1 0).wellFormed = true ∧
      (Instr.genPoly 255).wellFormed = true ∧ (Instr.rsEncode 254 1).wellFormed = true := by decide

/-! ### Decoding: a word of every constructor, its bits written out from R57 and R62 -/

theorem test_decode_nop : decode 0b00000000000000000000000000000000#32 = .ok .nop := by rfl

theorem test_decode_softReset : decode 0b00000001000000000000000000000000#32 = .ok .softReset := by rfl

theorem test_decode_selClear : decode 0b00010000000000000000000000000000#32 = .ok .selClear := by rfl

/-- 0x1101000B, alnum, 11. -/
theorem test_decode_selAdd :
    decode 0b00010001000000010000000000001011#32 = .ok (.selAdd 1 11) := by rfl

/-- 0x12002903, version 41, level H. -/
theorem test_decode_selRun :
    decode 0b00010010000000000010100100000011#32 = .ok (.selRun 41 3) := by rfl

/-- 0x13000502, 5-Q. -/
theorem test_decode_specQuery :
    decode 0b00010011000000000000010100000010#32 = .ok (.specQuery 5 2) := by rfl

theorem test_decode_genPoly :
    decode 0b00100000000000000000000000001010#32 = .ok (.genPoly 10) := by rfl

/-- 0x2100100A, K = 16, N = 10. -/
theorem test_decode_rsEncode :
    decode 0b00100001000000000001000000001010#32 = .ok (.rsEncode 16 10) := by rfl

theorem test_decode_assemble : decode 0b00110000000000000000000000000000#32 = .ok .assemble := by rfl

theorem test_decode_cwReset : decode 0b00110001000000000000000000000000#32 = .ok .cwReset := by rfl

theorem test_decode_cwNext : decode 0b00110010000000000000000000000000#32 = .ok .cwNext := by rfl

theorem test_decode_frameInit : decode 0b01000000000000000000000000000000#32 = .ok .frameInit := by rfl

theorem test_decode_fillReset : decode 0b01000001000000000000000000000000#32 = .ok .fillReset := by rfl

theorem test_decode_fillNext : decode 0b01000010000000000000000000000000#32 = .ok .fillNext := by rfl

theorem test_decode_frameFill : decode 0b01000011000000000000000000000000#32 = .ok .frameFill := by rfl

theorem test_decode_mask : decode 0b01010000000000000000000000000101#32 = .ok (.mask 5) := by rfl

/-- The IllegalCommand rows of 95_test_vectors.md section 2.1. -/
theorem test_decode_illegal :
    decode 0x00000001#32 = .error .reservedBitSet ∧ decode 0x02000000#32 = .error .unassignedOpcode ∧
      decode 0xFF000000#32 = .error .unassignedOpcode ∧ decode 0x11080001#32 = .error .reservedBitSet ∧
      decode 0x12000004#32 = .error .reservedBitSet ∧ decode 0x12004000#32 = .error .reservedBitSet ∧
      decode 0x20000100#32 = .error .reservedBitSet ∧ decode 0x21010000#32 = .error .reservedBitSet ∧
      decode 0x50000008#32 = .error .reservedBitSet := by
  refine ⟨rfl, rfl, rfl, rfl, rfl, rfl, rfl, rfl, rfl⟩

/-- A word of fewer bits has zeros above. -/
theorem test_tableWord : decodeTableWord 32 0x1100FFFF = some (.selAdd 0 0xFFFF) ∧
    decodeTableWord 32 0x50000008 = none := by
  refine ⟨rfl, rfl⟩

/-! ### Control -/

/-- 2.2: a NOP after an error clears ERRCODE and leaves ERR. -/
theorem test_nop_keeps_err :
    (after (exec .nop { State.reset with err := true, errcode := 5 })).map statusWord =
      some 0x00000002#32 := by decide +kernel

/-- 2.2: SOFT_RESET keeps buffers and frame. -/
theorem test_softReset_keeps_bytes :
    (after (exec .softReset (loaded dataBase [0x55] (framed .masked)))).map
        (fun t => (statusWord t, t.mem.read dataBase, t.mem.read (cellAddr 0 0))) =
      some (0x00000000#32, some 0x55#8, some 0x03#8) := by decide +kernel

/-- 2.11: the word at CMD is what the step runs, and 0x02000000 is no command. -/
theorem test_step_illegal :
    (after (step (State.reset.withFetchWord 32 0x02000000))).map
        (fun t => (t.errcode, statusWord t)) = some (6#4, 0x00000002#32) := by decide +kernel

/-! ### The version selector -/

theorem test_selClear :
    (after (exec .selClear { State.reset with segments := [⟨.byte, 3⟩] })).map
        (fun t => (segCount t, segTableWord t 0)) = some (0#9, 0#32) := by decide +kernel

/-- 2.4: alnum, 11 as the second segment. -/
theorem test_selAdd_second :
    (after (exec (.selAdd 1 11) { State.reset with segments := [⟨.numeric, 7⟩] })).map
        (fun t => (segCount t, segTableWord t 0, segTableWord t 1)) =
      some (2#9, 0x00000007#32, 0x0001000B#32) := by decide +kernel

/-- 2.1, 2.11: MODE 4 before COUNT 0, COUNT 0 before a full list. -/
theorem test_selAdd_errors :
    codeOf (.selAdd 4 0) State.reset = some 1#4 ∧
      codeOf (.selAdd 0 0) { State.reset with segments := List.replicate 256 ⟨.byte, 1⟩ } = some 3#4 ∧
      codeOf (.selAdd 0 1) { State.reset with segments := List.replicate 256 ⟨.byte, 1⟩ } = some 9#4 := by
  decide +kernel

/-- 2.4: (num, 4), (alnum, 3), (byte, 2) at auto, M. -/
theorem test_selRun_three_modes :
    (after (exec (.selRun 0 1)
        { State.reset with segments := [⟨.numeric, 4⟩, ⟨.alphanumeric, 3⟩, ⟨.byte, 2⟩] })).map
        (fun t => (t.spec.version, t.reqBits)) = some (1#6, 90#15) := by decide +kernel

/-- 2.4: nine Kanji at auto, L, with 16 and with 13 bits a character. -/
theorem test_selRun_kanji :
    (after (exec (.selRun 0 0) { State.reset with segments := [⟨.kanji, 9⟩] })).map
        (fun t => (t.spec.version, t.reqBits)) = some (2#6, 160#15) ∧
      (after (exec (.selRun 0 0)
        { State.reset with
          segments := [⟨.kanji, 9⟩], params := { defaultParams with kanjiBits := 13 } })).map
        (fun t => (t.spec.version, t.reqBits)) = some (1#6, 133#15) := by decide +kernel

/-! ### The tables -/

/-- 2.3: 5-Q, run by the step. -/
theorem test_specQuery_5Q :
    (after (step (State.reset.withFetchWord 32 0x13000502))).map (fun t => t.spec) =
      some ⟨5, 2, 37, 134, 62, 72, 7, 2, 2, 15, 16, 18⟩ := by decide +kernel

/-- 2.3: 40-H; 2.1: version 0 is illegal. -/
theorem test_specQuery_40H :
    (after (exec (.specQuery 40 3) State.reset)).map (fun t => t.spec) =
        some ⟨40, 3, 177, 3706, 1276, 2430, 0, 20, 61, 15, 16, 30⟩ ∧
      codeOf (.specQuery 0 0) State.reset = some 1#4 := by decide +kernel

/-! ### The Reed-Solomon engine -/

/-- 2.5: products in the field of 0x11D. -/
theorem test_gfMul :
    gfMul 0x02 0x80 = 0x1D#8 ∧ gfMul 0x8E 0x02 = 0x01#8 ∧ gfMul 0x53 0xCA = 0x8F#8 ∧
      gfMul 0xFF 0xFF = 0xE2#8 ∧ gfMul 0x00 0x37 = 0x00#8 := by decide +kernel

/-- 2.6: n = 7. -/
theorem test_genPoly_7 :
    bytesAfter (.genPoly 7) State.reset genBase 8 =
      some [0x75, 0x44, 0x0B, 0xA4, 0x9A, 0x7A, 0x7F, 0x01] := by decide +kernel

/-- 2.6: n = 2 after n = 7 keeps the bytes above. -/
theorem test_genPoly_2_after_7 :
    bytesAfter (.genPoly 2) (loaded genBase [0x75, 0x44, 0x0B, 0xA4, 0x9A, 0x7A, 0x7F, 0x01] State.reset)
        genBase 8 = some [0x02, 0x03, 0x01, 0xA4, 0x9A, 0x7A, 0x7F, 0x01] := by decide +kernel

/-- S11: the standard's example block. -/
theorem test_rsEncode_s11 :
    bytesAfter (.rsEncode 16 10) (loaded blkBase dataS11 State.reset) (blkBase + 16) 10 =
      some [0xA5, 0x24, 0xD4, 0xC1, 0xED, 0x36, 0xC7, 0x87, 0x2C, 0x55] := by decide +kernel

/-- R103: K = 0 writes zeros; an unwritten data byte stops the command. -/
theorem test_rsEncode_empty :
    bytesAfter (.rsEncode 0 3) State.reset blkBase 3 = some [0x00, 0x00, 0x00] ∧
      stops (exec (.rsEncode 1 1) State.reset) = some .unwrittenRead := by decide +kernel

/-! ### The assembler -/

/-- P1: the ecc of 1-L, and the stream behind it. -/
theorem test_assemble_p1 :
    bytesAfter .assemble p1 eccBase 7 = some eccP1 ∧
      bytesAfter .assemble p1 streamBase 26 = some (dataP1 ++ eccP1) := by decide +kernel

/-- R108: 5-Q, the two positions where only group-2 blocks have a column, and the first ecc positions. -/
theorem test_order_5Q :
    ((List.range 4).map fun i => (SpecRegs.of 5 2).codewordAddr (60 + i)) =
      [dataBase + 45, dataBase + 61, eccBase + 0, eccBase + 18] := by decide +kernel

theorem test_cwReset :
    (after (exec .cwReset { State.reset with cwIndex := 134, cwOut := 0x13 })).map
        (fun t => (t.cwIndex, t.cwOut)) = some (0#12, 0x13#8) := by decide +kernel

/-- R110: in 1-L the twentieth codeword is ECC_BUF[0]; at 26 the cursor is exhausted. -/
theorem test_cwNext :
    (after (exec .cwNext { loaded eccBase eccP1 p1 with cwIndex := 19 })).map
        (fun t => (t.cwIndex, t.cwOut)) = some (20#12, 0x43#8) ∧
      codeOf .cwNext { p1 with cwIndex := 26 } = some 8#4 := by decide +kernel

/-! ### The frame -/

/-- 2.9: cells of the skeletons of versions 1, 2 and 7. -/
theorem test_skeleton_cells :
    [(0, 0), (1, 1), (3, 3), (7, 7), (6, 8), (6, 9), (9, 6), (8, 8), (8, 13), (13, 8), (20, 20), (30, 30)].map
        (fun p => skeleton 1 p.1 p.2) =
      [0x03, 0x02, 0x03, 0x02, 0x03, 0x02, 0x02, 0x02, 0x02, 0x03, 0x00, 0x00] ∧
    [(18, 18), (17, 17), (16, 16)].map (fun p => skeleton 2 p.1 p.2) = [0x03, 0x02, 0x03] ∧
    [(0, 36), (1, 35), (4, 34), (0, 34), (5, 36), (36, 0), (35, 2)].map (fun p => skeleton 7 p.1 p.2) =
      [0x03, 0x03, 0x03, 0x02, 0x02, 0x03, 0x03] := by decide +kernel

/-- 2.2, R117: FRAME_INIT of version 7. -/
theorem test_frameInit :
    (after (exec .frameInit { ready 7 0 with fillPos := ⟨1, 2, true, true, true⟩ })).map
        (fun t => (statusWord t, t.frameVersion, t.versionBits, t.fillPos.word, t.mem.read (cellAddr 0 36))) =
      some (0x00000014#32, 7#6, 0x07C94#18, 0#32, some 0x03#8) := by decide +kernel

theorem test_fillReset :
    (after (exec .fillReset { State.reset with fillPos := ⟨1, 2, true, true, true⟩ })).map
        (fun t => t.fillPos.word) = some 0#32 := by decide +kernel

/-- 2.9: the first call at version 1, and the 25th after the 24th. -/
theorem test_fillNext :
    (after (exec .fillNext (framed .skeleton))).map (fun t => t.fillPos.word) = some 0x00071414#32 ∧
      (after (exec .fillNext { framed .skeleton with fillPos := ⟨19, 9, true, false, true⟩ })).map
        (fun t => t.fillPos.word) = some 0x00060912#32 := by decide +kernel

/-- 2.9: the 209th call finds nothing. -/
theorem test_fillNext_exhausted :
    codeOf .fillNext { framed .skeleton with fillPos := ⟨0, 12, false, false, true⟩ } = some 8#4 := by
  decide +kernel

/-- R120: the eight cells of the codeword 0x20. The spec registers ask for this one codeword, so that the
test stays small. -/
theorem test_frameFill_first_codeword :
    (after (exec .frameFill
        { framed .skeleton with
          spec := { SpecRegs.of 1 0 with totalCw := 1 }
          mem := (streamBase, 0x20#8) :: symbol1 (skeleton 1) })).map
        (fun t => ([(20, 20), (20, 19), (19, 20), (19, 19), (18, 20), (18, 19), (17, 20), (17, 19)].map
          (fun p => t.mem.read (cellAddr p.1 p.2)), t.fillPos.word, statusWord t)) =
      some ([some 0, some 0, some 1, some 0, some 0, some 0, some 0, some 0], 0x00051113#32,
        0x00000024#32) := by decide +kernel

/-- R120: a frame of version 1 does not take the stream of version 2. -/
theorem test_frameFill_other_version :
    codeOf .frameFill { framed .skeleton with spec := SpecRegs.of 2 0 } = some 7#4 := by decide +kernel

/-! ### The mask -/

/-- 2.10: the predicates at (3, 5) and (4, 6). -/
theorem test_maskPred :
    (List.range 8).map (fun m => maskPred m 3 5) = [true, false, false, false, true, false, false, true] ∧
      (List.range 8).map (fun m => maskPred m 4 6) = [true, true, true, false, true, true, true, true] := by
  decide +kernel

/-- R124, 2.10: mask 0 on a filled frame of version 1, level L. -/
theorem test_mask_0 :
    (after (exec (.mask 0) (framed .filled))).map
        (fun t => (t.formatBits, t.mem.read (cellAddr 0 8), t.mem.read (cellAddr 8 0),
          t.mem.read (cellAddr 8 14), t.mem.read (cellAddr 20 20), t.mem.read (cellAddr 20 19))) =
      some (0x77C4#15, some 0x02#8, some 0x03#8, some 0x03#8, some 0x01#8, some 0x00#8) := by
  decide +kernel

/-- R124: MASK 0 at stage 1 is not ready. -/
theorem test_mask_not_ready : codeOf (.mask 0) (framed .skeleton) = some 7#4 := by decide +kernel

/-! ### Witnesses: a state and operands for the hypotheses of each obligation -/

/-- SelAddAppendsSegment: each clause, at the ends of its ranges. -/
theorem witness_selAdd :
    (3#3).toNat < 4 ∧ (0xFFFF#16 ≠ 0#16) ∧
      (List.replicate 255 (⟨.kanji, 1⟩ : Segment)).length < 256 ∧
      4 ≤ (4#3).toNat ∧ 4 ≤ (7#3).toNat ∧ 256 ≤ (List.replicate 256 (⟨.byte, 1⟩ : Segment)).length := by
  decide +kernel

/-- One Byte segment, as SEL_RUN finds it. -/
def oneByteSegment (n : BitVec 16) : State := { State.reset with segments := [⟨.byte, n⟩] }

/-- SelRunResolvesVersion, success: auto resolves 18 bytes at L to version 2, and version 40 fits 2953. -/
theorem witness_selRun_fits :
    (oneByteSegment 18).segments ≠ [] ∧ resolvesTo (oneByteSegment 18) 0 0 2 ∧
      resolvesTo (oneByteSegment 2953) 40 0 40 := by
  refine ⟨by decide, ?_, ?_⟩
  · refine ⟨by decide, by decide, by unfold listFits; decide +kernel, fun u h1 h2 => ?_⟩
    obtain rfl : u = 1 := by omega
    unfold listFits
    decide +kernel
  · exact ⟨rfl, by unfold listFits; decide +kernel⟩

/-- SelRunResolvesVersion, errors: version 41, no segment, and 18 bytes at 1-L. -/
theorem witness_selRun_errors :
    40 < (41#6).toNat ∧ State.reset.segments = [] ∧
      ∀ v, ¬ resolvesTo (oneByteSegment 18) (1#6).toNat 0 v := by
  refine ⟨by decide, rfl, fun v h => ?_⟩
  obtain ⟨rfl, h⟩ := h
  revert h
  unfold listFits
  decide +kernel

/-- SpecQueryLoadsSpec: the ends of both ranges. -/
theorem witness_specQuery :
    1 ≤ (1#6).toNat ∧ (40#6).toNat ≤ 40 ∧ (0#6).toNat = 0 ∧ 40 < (41#6).toNat := by decide

/-- SelRunResolvesVersion (the default widths), MaskPredicatesAndFormatCells, CapacityRowsAddUp,
SkeletonLaws, SkeletonPatterns, ZigzagVisitsEachCellOnce, StreamOrderIsBijective,
FreshSkeletonHoldsTheWholeStream: the ends of the range of versions, the last level, and a version with
version information. -/
theorem witness_versions : 1 ≤ 1 ∧ 1 ≤ 40 ∧ 40 ≤ 40 ∧ 3 < 4 ∧ 7 ≤ 40 := by decide

/-- SkeletonPatterns, each clause at version 7 (w = 45): a separator cell of each corner, a timing cell, and
a cell outside, and corner cells of the first and of the last alignment pattern, centres (6, 22) and
(38, 38). -/
theorem witness_skeletonPatterns :
    (symbolWidth 7 = 45 ∧ 7 < 45 ∧ 0 ≤ 7 + 1 ∧ 7 ≤ 0 + 7) ∧ (37 < 45 ∧ 38 ≤ 37 + 1 ∧ 37 ≤ 38 + 7) ∧
      (8 ≤ 36 ∧ 36 + 8 < 45) ∧ 45 ≤ 45 ∧
      ((alignmentCentres 7)[0]? = some 6 ∧ (alignmentCentres 7)[1]? = some 22 ∧
        (alignmentCentres 7)[2]? = some 38 ∧ (alignmentCentres 7).length = 3) ∧
      (6 ≤ 4 + 2 ∧ 4 ≤ 6 + 2 ∧ 22 ≤ 24 + 2 ∧ 24 ≤ 22 + 2) ∧ (38 ≤ 40 + 2 ∧ 40 ≤ 38 + 2) := by
  decide +kernel

/-- GeneratorHasItsRoots, GenPolyWritesGenerator: both ends and N = 0. -/
theorem witness_generator : (1#8 ≠ 0#8) ∧ (255#8).toNat ≤ 255 ∧ 254 < 255 ∧ (0#8 = 0#8) := by decide

/-- The data of the widest block. -/
def wideBlock : List Byte := List.replicate 254 0xA5#8

/-- RsEncodeWritesEcc, success: the widest block, K = 254 and N = 1. -/
theorem witness_rsEncode :
    1 ≤ (1#8).toNat ∧ (254#8).toNat + (1#8).toNat ≤ 255 ∧ wideBlock.length = (254#8).toNat ∧
      ∀ i (h : i < wideBlock.length),
        (loaded blkBase wideBlock State.reset).mem.read (blkBase + i) = some wideBlock[i] :=
  ⟨by decide, by decide, List.length_replicate, fun _ h => Memory.read_writeRange_inside _ _ _ h⟩

/-- RsEncodeWritesEcc, the other clauses: N = 0, K + N = 256, and an unwritten byte. -/
theorem witness_rsEncode_stops :
    (0#8).toNat = 0 ∧ 255 < (255#8).toNat + (1#8).toNat ∧
      ∃ i < (254#8).toNat, State.reset.mem.read (blkBase + i) = none := by
  exact ⟨rfl, by decide, 0, by decide, rfl⟩

/-- CodewordHasZeroSyndrome and EccIsLinear: the standard's block, and two blocks of one length. -/
theorem witness_blocks :
    1 ≤ 10 ∧ dataS11.length + 10 ≤ 255 ∧ 9 < 10 ∧ dataS11.length = (List.replicate 16 0x01#8).length := by
  decide

/-- AssembleEncodesAndInterleaves: P1 before ASSEMBLE, the reset state, and 1-L with no data. -/
theorem witness_assemble :
    p1.specValid = true ∧ p1.spec = SpecRegs.of 1 0 ∧ dataP1.length = (capacityRow 1 0).data ∧
      (∀ i (h : i < dataP1.length), p1.mem.read (dataBase + i) = some dataP1[i]) ∧
      State.reset.specValid = false ∧ 18 < (capacityRow 1 0).data ∧
      (ready 1 0).mem.read (dataBase + 18) = none := by
  decide +kernel

/-- CwNextYieldsCodeword, each clause: the first codeword, the last but unwritten, past the end. -/
theorem witness_cwNext :
    p1.specValid = true ∧ p1.cwIndex.toNat < p1.spec.totalCw.toNat ∧
      p1.mem.read (p1.spec.codewordAddr p1.cwIndex.toNat) = some 0x10#8 ∧
      (25#12).toNat < p1.spec.totalCw.toNat ∧ p1.mem.read (p1.spec.codewordAddr (25#12).toNat) = none ∧
      p1.spec.totalCw.toNat ≤ (26#12).toNat := by
  decide +kernel

/-- CursorYieldsAssembledStream: P1 assembles, and 25 is its last position. -/
theorem witness_cursorYields :
    p1.spec = SpecRegs.of 1 0 ∧ p1.specValid = true ∧ 25 < (capacityRow 1 0).total ∧
      (after (exec .assemble p1)).isSome = true := by
  decide +kernel

/-- FrameInitBuildsSkeleton: with an EC Spec and without. -/
theorem witness_frameInit : (ready 40 3).specValid = true ∧ State.reset.specValid = false := by decide

/-- A state in which the filler has one cell left, (20, 0), reserved. -/
def lastReserved : State :=
  { framed .skeleton with fillPos := ⟨1, 20, false, true, true⟩, mem := [(cellAddr 20 0, 0x02#8)] }

/-- FillNextReportsNextFreeCell, each clause: the first cell of a fresh skeleton, a reserved rest, and an
unwritten frame. -/
theorem witness_fillNext :
    (framed .skeleton).frameStage ≠ .none ∧
      fillerPath (framed .skeleton) =
        [] ++ cursorStart 21 :: (fillerPath (framed .skeleton)).tail ∧
      freeAt (framed .skeleton).mem (cursorStart 21) ∧
      fillerPath lastReserved = [⟨20, 0, false, false⟩] ∧ reservedAt lastReserved.mem ⟨20, 0, false, false⟩ ∧
      { framed .skeleton with mem := [] }.mem.read (cellAddr 20 20) = none ∧
      State.reset.frameStage = .none := by
  refine ⟨by decide, by decide +kernel, ⟨0x00#8, by decide +kernel, by decide⟩, by decide +kernel,
    ⟨0x02#8, by decide +kernel, by decide⟩, rfl, rfl⟩

/-- FillNextReportsNextFreeCell, first clause behind reserved cells: the one reserved cell (20, 20). -/
theorem witness_fillNext_behind :
    ∃ post, fillerPath (framed .skeleton) = [cursorStart 21] ++ ⟨20, 19, true, false⟩ :: post :=
  ⟨(fillerPath (framed .skeleton)).tail.tail, by decide +kernel⟩

/-- P1 with its stream assembled and every cell of the frame store written. -/
def p1Framed (stage : FrameStage) (cell : Nat → Nat → Byte) : State :=
  { ready 1 0 with
    frameStage := stage, frameVersion := 1
    mem := Memory.writeFrame (cellsFrom streamBase (dataP1 ++ eccP1)) cell }

theorem p1Framed_cell (stage : FrameStage) (cell : Nat → Nat → Byte) {r c : Nat} (hr : r < 21)
    (hc : c < 21) : (p1Framed stage cell).mem.read (cellAddr r c) = some (cell r c) :=
  read_writeFrame_cell _ _ (by omega) (by omega)

theorem p1Framed_stream (stage : FrameStage) (cell : Nat → Nat → Byte) {i : Nat}
    (h : i < (dataP1 ++ eccP1).length) :
    (p1Framed stage cell).mem.read (streamBase + i) = some (dataP1 ++ eccP1)[i] := by
  have hb : streamBase + 26 ≤ frameBase := by decide
  have hl : (dataP1 ++ eccP1).length = 26 := rfl
  rw [p1Framed, read_writeFrame_outside _ _ (by omega), Memory.read_cellsFrom]
  simp

theorem zigzag21_inside : ∀ x ∈ zigzag 21, x.r < 21 ∧ x.c < 21 := by decide +kernel

/-- FrameFillPlacesStream: P1 before FRAME_FILL. -/
theorem witness_frameFill :
    let s := p1Framed .skeleton (skeleton 1)
    s.frameStage ≠ .none ∧ s.specValid = true ∧ s.frameVersion = s.spec.version ∧
      1 ≤ s.frameVersion.toNat ∧ s.frameVersion.toNat ≤ 40 ∧ s.mem.wf ∧
      (dataP1 ++ eccP1).length = s.spec.totalCw.toNat ∧
      (∀ i (h : i < (dataP1 ++ eccP1).length), s.mem.read (streamBase + i) = some (dataP1 ++ eccP1)[i]) ∧
      (∀ r < frameWidth s, ∀ c < frameWidth s, (s.mem.read (cellAddr r c)).isSome) ∧
      8 * s.spec.totalCw.toNat + s.spec.remBits.toNat ≤
        ((zigzag (frameWidth s)).filter (isFree s.mem)).length := by
  refine ⟨by decide, rfl, rfl, by decide, by decide, wf_writeFrame _ (Memory.wf_cellsFrom _ _), by decide,
    fun _ h => p1Framed_stream _ _ h, fun r hr c hc => by rw [p1Framed_cell _ _ hr hc]; rfl, ?_⟩
  have h : (zigzag 21).filter (isFree (p1Framed .skeleton (skeleton 1)).mem) =
      (zigzag 21).filter fun x => !cellReserved (skeleton 1 x.r x.c) :=
    List.filter_congr fun x hx => by
      rw [isFree, p1Framed_cell _ _ (zigzag21_inside x hx).1 (zigzag21_inside x hx).2]
  have hw : frameWidth (p1Framed .skeleton (skeleton 1)) = 21 := rfl
  rw [hw, h]
  decide +kernel

/-- FrameFillErrorsInOrder, the second clause: every cell reserved by the Host, so no cell is free. -/
theorem witness_frameFill_exhausted :
    let s := p1Framed .skeleton fun _ _ => 0x02#8
    (∀ i < s.spec.totalCw.toNat, (s.mem.read (streamBase + i)).isSome) ∧
      (∀ c ∈ zigzag (frameWidth s), (s.mem.read (cellAddr c.r c.c)).isSome) ∧
      ((zigzag (frameWidth s)).filter (isFree s.mem)).length <
        8 * s.spec.totalCw.toNat + s.spec.remBits.toNat := by
  refine ⟨fun i h => by rw [p1Framed_stream _ _ h]; rfl, fun x hx => ?_, ?_⟩
  · rw [p1Framed_cell _ _ (zigzag21_inside x hx).1 (zigzag21_inside x hx).2]
    rfl
  · have h : (zigzag 21).filter (isFree (p1Framed .skeleton fun _ _ => 0x02#8).mem) = [] :=
      List.filter_eq_nil_iff.2 fun x hx => by
        rw [isFree, p1Framed_cell _ _ (zigzag21_inside x hx).1 (zigzag21_inside x hx).2]
        decide
    have hw : frameWidth (p1Framed .skeleton fun _ _ => 0x02#8) = 21 := rfl
    rw [hw, h]
    decide

/-- FrameFillErrorsInOrder, the other clauses: three states that are not ready, a stream not written, and a
frame not written at its first cell. -/
theorem witness_frameFill_stops :
    State.reset.frameStage = .none ∧ { framed .skeleton with specValid := false }.specValid = false ∧
      (framed .skeleton).frameVersion ≠ (SpecRegs.of 2 0).version ∧
      (∃ i < (framed .skeleton).spec.totalCw.toNat, (framed .skeleton).mem.read (streamBase + i) = none) ∧
      (∀ i < 26, (Memory.read (cellsFrom streamBase (dataP1 ++ eccP1)) (streamBase + i)).isSome) ∧
      zigzag 21 = [] ++ cursorStart 21 :: (zigzag 21).tail ∧
      (([] : List Cursor).filter (isFree [])).length < 208 ∧
      Memory.read (cellsFrom streamBase (dataP1 ++ eccP1)) (cellAddr 20 20) = none := by
  refine ⟨rfl, rfl, by decide +kernel, ⟨0, by decide +kernel, by decide +kernel⟩, by decide +kernel,
    by decide +kernel, by decide, by decide +kernel⟩

/-- What MASK asks of a frame: written inside W, of a version of the table, in canonical form. -/
def maskable (s : State) : Prop :=
  (s.frameStage = .filled ∨ s.frameStage = .masked) ∧ s.mem.wf ∧ 1 ≤ s.frameVersion.toNat ∧
    s.frameVersion.toNat ≤ 40 ∧
    ∀ r < frameWidth s, ∀ c < frameWidth s, (s.mem.read (cellAddr r c)).isSome

theorem p1Framed_maskable (stage : FrameStage) (h : stage = .filled ∨ stage = .masked) :
    maskable (p1Framed stage (skeleton 1)) :=
  ⟨h, wf_writeFrame _ (Memory.wf_cellsFrom _ _), (by decide : 1 ≤ (1 : BitVec 6).toNat),
    (by decide : (1 : BitVec 6).toNat ≤ 40), fun r hr c hc => by rw [p1Framed_cell _ _ hr hc]; rfl⟩

/-- MaskInvertsDataAndWritesFormat, MaskReplacesEarlierMask: a filled and a masked frame of version 1. -/
theorem witness_mask :
    maskable (p1Framed .filled (skeleton 1)) ∧ maskable (p1Framed .masked (skeleton 1)) :=
  ⟨p1Framed_maskable .filled (.inl rfl), p1Framed_maskable .masked (.inr rfl)⟩

/-- MaskInvertsDataAndWritesFormat, the clauses that end otherwise: the stage before, and a frame that is
not written. -/
theorem witness_mask_stops :
    (framed .skeleton).frameStage = .skeleton ∧
      ({ framed .filled with mem := [] }).frameStage = .filled ∧
      ∃ r < frameWidth (framed .filled), ∃ c < frameWidth (framed .filled),
        Memory.read [] (cellAddr r c) = none :=
  ⟨rfl, rfl, 0, by decide, 0, by decide, rfl⟩

/-- MaskPredicatesAndFormatCells: a cell in both parts of the placeholder, one of neither, and a memory. -/
theorem witness_format_cells :
    (20 < symbolWidth 1 ∧ 8 < symbolWidth 1) ∧ Memory.wf [] ∧
      ¬ isFormatCell (symbolWidth 1) dataBase := by
  refine ⟨by decide, Memory.wf_nil, ?_⟩
  unfold isFormatCell
  decide +kernel

/-- SpecValidChangesOnlyByItsCommands, the clause on MASK. -/
theorem witness_mask_without_spec : frameOk State.reset ∧ State.reset.specValid = false :=
  ⟨⟨fun _ => ⟨rfl, rfl, rfl⟩, fun h => absurd rfl h, fun _ => ⟨rfl, rfl⟩⟩, rfl⟩

/-- ErrorCompletionChangesNothingElse, CompletionClearsBusyAndKeepsErr, OnlyListedCodesAreProduced,
EngineFaultsOnlyOnUnwrittenReads, CommandsIgnoreTheHostSide: a command that ends in error, one that
succeeds, a word that is none, and a command that stops. -/
theorem witness_outcomes :
    exec .cwNext State.reset = .next (State.reset.fail .notReady) ∧
      (State.reset.fail .notReady).errcode ≠ 0#4 ∧
      exec .nop State.reset = .next State.reset.complete ∧ State.reset.complete.errcode = 0#4 ∧
      engineStep { State.reset with cmd := 0x02000000#32 } =
        .next ({ State.reset with cmd := 0x02000000#32 }.fail .illegalCommand) ∧
      exec (.rsEncode 1 1) State.reset = .fault .unwrittenRead := by
  exact ⟨rfl, by decide, rfl, rfl, rfl, rfl⟩

/-- InvalidArgumentComesFirst: an illegal operand, and a legal one with its next state. -/
theorem witness_operands :
    (Instr.genPoly 0).wellFormed = false ∧ (Instr.selAdd 3 0).wellFormed = true ∧
      exec (.selAdd 3 0) State.reset = .next (State.reset.fail .invalidPayloadForMode) := by
  exact ⟨rfl, rfl, rfl⟩

/-- SpecValidChangesOnlyByItsCommands, FrameStageChangesOnlyByItsCommands, ErrIsSticky: steps that set and
clear the flags. -/
theorem witness_flags :
    (after (step ((ready 1 0).withFetchWord 32 0x01000000))).map (fun t => t.specValid) = some false ∧
      (after (step (State.reset.withFetchWord 32 0x13000100))).map (fun t => t.specValid) = some true ∧
      (after (step ((ready 1 0).withFetchWord 32 0x40000000))).map (fun t => t.frameStage) =
        some .skeleton ∧
      (after (step ({ State.reset with err := true }.withFetchWord 32 0x01000000))).map (fun t => t.err) =
        some false ∧
      (after (step (facing [.sw 0x004 0x00000002] { State.reset with err := true }))).map (fun t => t.err) =
        some false := by
  decide +kernel

/-- EncodeOfDecode and IllegalWordsEndInIllegalCommand: a word of each kind. -/
theorem witness_words :
    decode 0x11000007#32 = .ok (.selAdd 0 7) ∧
      decode { State.reset with cmd := 0x50000008#32 }.cmd = .error .reservedBitSet := ⟨rfl, rfl⟩

/-- StepRunsDecodedCommand: a busy block with nothing at the port, and with a wait after the last draw. -/
theorem witness_step :
    (State.reset.withFetchWord 32 0x00000000).busy = true ∧
      decode (State.reset.withFetchWord 32 0x00000000).cmd = .ok .nop ∧
      (State.reset.withFetchWord 32 0x00000000).port = [] ∧ allowedWhileBusy .wait = true ∧
      (State.reset.withFetchWord 32 0x00000000).busyLeft = 0 ∧
      decodeTableWord 32 0x43000000 = some .frameFill := by
  exact ⟨rfl, rfl, rfl, rfl, rfl, rfl⟩

/-- BusyHostMayOnlyReadStatus: a forbidden access, and the two reads with a poll left. -/
theorem witness_busy :
    (.sw 0x000#32 0x00000000#32 ≠ HostAction.lw 0x004#32) ∧
      (HostAction.sw 0x000#32 0x00000000#32 ≠ .lw 0x008#32) ∧
      (HostAction.sw 0x000#32 0x00000000#32 ≠ .wait) ∧
      { State.reset with busy := true, busyLeft := 1, port := [.lw 0x004] }.port = [.lw 0x004#32] ∧
      { State.reset with busy := true, busyLeft := 1, port := [.lw 0x008] }.port = [.lw 0x008#32] ∧
      0 < { State.reset with busy := true, busyLeft := 1 }.busyLeft := by
  exact ⟨by decide, by decide, by decide, rfl, rfl, by decide⟩

/-- CmdWriteIssuesCommand, StatusWriteClearsErr, WordReadsReturnRegisters, ReadOnlyWritesHaveNoEffect: the
accesses at an idle port, at the ends of their ranges. -/
theorem witness_idle :
    State.reset.busy = false ∧
      (facing [.sw 0x000 0x50000007] State.reset).port = [.sw 0x000#32 0x50000007#32] ∧
      (facing [.sw 0x004 0x00000002] State.reset).port = [.sw 0x004#32 0x00000002#32] ∧
      (facing [.lw 0x060] State.reset).port = [.lw (BitVec.ofNat 32 Reg.genDegree.offset)] ∧
      (0x064 ≤ 0x0FC ∧ 0x0FC % 4 = 0) ∧ (0x008 ≤ 0x060 ∧ 0x060 ≤ 0x0FC ∧ 0x060 % 4 = 0) ∧ 255 < 256 ∧
      (0x3100 ≤ 0x33FF ∧ 0x33FF ≤ 0x33FF) := by
  exact ⟨rfl, rfl, rfl, rfl, by decide, by decide, by decide, by decide⟩

/-- BusErrorExactlyOffTheMap: the last cell of row 0 is mapped, the next address is not; a register is not
read at a misaligned address. -/
theorem witness_map :
    mapsTo (.lb 0x100B0) ∧ ¬ mapsTo (.lb 0x100B1) ∧ ¬ mapsTo (.lw 0x002) ∧ mapsTo (.lw 0x37FC) ∧
      ¬ mapsTo (.lw 0x1000) := by
  refine ⟨?_, ?_, ?_, ?_, ?_⟩ <;> simp only [mapsTo] <;> decide

/-- HostBytesReadBack, UnwrittenHostReadIsFree: a byte of a buffer, of GEN_BUF and of the frame. -/
theorem witness_bytes :
    State.reset.mem.wf ∧ regionOf 0x4FFF = some .buffer ∧ regionOf 0x31FF = some .genBuf ∧
      regionOf 0x1B0B0 = some (.frame 176 176) ∧ State.reset.mem.read 0x4FFF = none := by
  decide +kernel

/-- DoCommandRunsToCompletion: an idle block at which the Host does `do nop`. -/
theorem witness_do :
    (facing (scriptDo .nop) State.reset).port = scriptDo .nop ++ [] ∧
      exec .nop (startedBy .nop [] (facing (scriptDo .nop) State.reset)) =
        .next (startedBy .nop [] (facing (scriptDo .nop) State.reset)).complete := ⟨rfl, rfl⟩

/-- A state past SPEC_QUERY 40, H with a segment, a generator of degree 2 and SEL_CLEAR in execution. -/
def busyWithSelClear : State :=
  { ready 40 3 with
    segments := [⟨.byte, 1⟩], mem := cellsFrom genBase [0x02, 0x03, 0x01], genDegree := 2
    errcode := 9, err := true, cmd := 0x10000000, busy := true }

/-- StepKeepsSpecRegisters and StepKeepsLegal: a legal state with a next one. -/
theorem witness_legal :
    legal busyWithSelClear ∧ (after (step busyWithSelClear)).isSome = true := by
  refine ⟨⟨⟨by decide +kernel, by decide +kernel, by decide +kernel⟩, ⟨by decide, fun _ => ?_⟩,
    ⟨by decide, by decide⟩, by unfold errcodeOk; decide, ⟨by decide, fun _ => by decide +kernel⟩,
    ⟨fun _ => ⟨rfl, rfl, rfl⟩, fun h => absurd rfl h, fun _ => ⟨rfl, rfl⟩⟩,
    ⟨fun _ => rfl, fun h => absurd h (by decide)⟩, by decide, by decide⟩, by decide +kernel⟩
  exact ⟨40, 3, by decide, by decide, by decide, rfl⟩

end Sys2Proof.Tests
end

section
/-! PROOFS. How a command ends, said once for each of the sixteen, and what a step can do. -/

namespace Sys2Proof.Machine

open Sys2Proof

/-! ### What a command can do -/

/-- The state in which command i succeeds from s, before the completion's own writes (R126): the writes of
its rule, with the checks and reads that led there. -/
inductive Succeeds (s : State) : Instr → State → Prop
  | nop : Succeeds s .nop s
  | softReset : Succeeds s .softReset (resetRegisters s)
  | selClear : Succeeds s .selClear { s with segments := [] }
  | selAdd {mode : BitVec 3} {count : BitVec 16} {m : Mode} :
      modeOfOperand mode = some m → count ≠ 0 → s.segments.length < Config.maxSegments →
      Succeeds s (.selAdd mode count) { s with segments := s.segments ++ [⟨m, count⟩] }
  | selRun {version : BitVec 6} {level : BitVec 2} {v : Nat} :
      version.toNat ≤ Config.maxVersion → s.segments ≠ [] →
      resolveVersion s version.toNat level.toNat = some v →
      Succeeds s (.selRun version level)
        { s.loadSpec v level.toNat with reqBits := BitVec.ofNat 15 (totalBits s.params s.segments v) }
  | specQuery {version : BitVec 6} {level : BitVec 2} :
      1 ≤ version.toNat → version.toNat ≤ Config.maxVersion →
      Succeeds s (.specQuery version level) { s.loadSpec version.toNat level.toNat with reqBits := 0 }
  | genPoly {n : Byte} : n ≠ 0 →
      Succeeds s (.genPoly n)
        { s with
          mem := s.mem.writeRange genBase (generator n.toNat)
          genDegree := BitVec.ofNat 9 n.toNat }
  | rsEncode {k n : Byte} {d : List Byte} :
      1 ≤ n.toNat → k.toNat + n.toNat ≤ Config.codeLength →
      s.mem.readRange blkBase k.toNat = some d →
      Succeeds s (.rsEncode k n)
        { s with mem := s.mem.writeRange (blkBase + k.toNat) (rsEncode d n.toNat) }
  | assemble {ecc stream : List Byte} : s.specValid = true →
      allEcc s.spec s.mem = some ecc →
      streamOf s.spec (s.mem.writeRange eccBase ecc) = some stream →
      Succeeds s .assemble
        { s with mem := (s.mem.writeRange eccBase ecc).writeRange streamBase stream }
  | cwReset : Succeeds s .cwReset { s with cwIndex := 0 }
  | cwNext {b : Byte} : s.specValid = true → s.cwIndex.toNat < s.spec.totalCw.toNat →
      s.mem.read (s.spec.codewordAddr s.cwIndex.toNat) = some b →
      Succeeds s .cwNext { s with cwOut := b, cwIndex := BitVec.ofNat 12 (s.cwIndex.toNat + 1) }
  | frameInit : s.specValid = true →
      Succeeds s .frameInit
        { s with
          mem := s.mem.writeFrame (skeleton s.spec.version.toNat)
          frameVersion := s.spec.version
          versionBits := versionBitsOf s.spec.version.toNat
          maskCur := 0
          formatBits := 0
          fillPos := .zero
          frameStage := .skeleton }
  | fillReset : Succeeds s .fillReset { s with fillPos := .zero }
  | fillNext {cells : List Cursor} : s.frameStage ≠ .none →
      firstFree s.mem 1 (fillerPath s) = .found cells →
      Succeeds s .fillNext { s with fillPos := (cells.map Cursor.fillPos).headD s.fillPos }
  | frameFill {stream : List Byte} {cells : List Cursor} :
      s.frameStage ≠ .none → s.specValid = true → s.frameVersion = s.spec.version →
      s.mem.readRange streamBase s.spec.totalCw.toNat = some stream →
      fillCells s = .found cells →
      Succeeds s .frameFill
        { s with
          mem := placeBits s.mem cells (placementBits stream s.spec.remBits.toNat)
          fillPos := (cells.map Cursor.fillPos).getLastD s.fillPos
          maskCur := 0
          formatBits := 0
          frameStage := .filled }
  | mask {m : BitVec 3} : s.frameStage.isFilled = true →
      symbolWritten s.mem (frameWidth s) = true →
      Succeeds s (.mask m)
        { s with
          mem := writeFormat
            (flipSymbol s.mem (frameWidth s) (maskFlip s.frameStage s.maskCur.toNat m.toNat))
            (frameWidth s) (formatWord s.spec.level.toNat m.toNat)
          formatBits := formatWord s.spec.level.toNat m.toNat
          maskCur := m
          frameStage := .masked }

/-- The two ends of a command: with a code that R125 lists for it and nothing written (R127), or with
success (R126). -/
inductive ExecCase (s : State) (i : Instr) : State → Prop
  | fails {c : ErrCode} : c ∈ mayRaise i → ExecCase s i (s.fail c)
  | succeeds {u : State} : Succeeds s i u → ExecCase s i u.complete

theorem ExecCase.of_raiseError {s t : State} {i : Instr} {c : ErrCode} (hc : c ∈ mayRaise i)
    (h : raiseError c s = .next t) : ExecCase s i t := by
  obtain rfl := raiseError_eq_next.1 h
  exact .fails hc

theorem ExecCase.of_succeed {s t u : State} {i : Instr} (hu : Succeeds s i u)
    (h : succeed u = .next t) : ExecCase s i t := by
  obtain rfl := succeed_eq_next.1 h
  exact .succeeds hu

theorem execSelAdd_cases {mode : BitVec 3} {count : BitVec 16} {s t : State}
    (h : execSelAdd mode count s = .next t) : ExecCase s (.selAdd mode count) t := by
  unfold execSelAdd at h
  split at h
  · exact .of_raiseError (by simp [mayRaise]) h
  · next hm =>
    split_ifs at h with h0 hfull
    · exact .of_raiseError (by simp [mayRaise]) h
    · exact .of_raiseError (by simp [mayRaise]) h
    · exact .of_succeed (.selAdd hm h0 (by omega)) h

theorem execSelRun_cases {version : BitVec 6} {level : BitVec 2} {s t : State}
    (h : execSelRun version level s = .next t) : ExecCase s (.selRun version level) t := by
  unfold execSelRun at h
  split_ifs at h with hv hs
  · exact .of_raiseError (by simp [mayRaise]) h
  · exact .of_raiseError (by simp [mayRaise]) h
  · split at h
    · exact .of_raiseError (by simp [mayRaise]) h
    · next hr => exact .of_succeed (.selRun (by simpa [legalRunVersion] using hv) hs hr) h

theorem execSpecQuery_cases {version : BitVec 6} {level : BitVec 2} {s t : State}
    (h : execSpecQuery version level s = .next t) : ExecCase s (.specQuery version level) t := by
  unfold execSpecQuery at h
  split_ifs at h with hv
  · exact .of_raiseError (by simp [mayRaise]) h
  · have hv' : 1 ≤ version.toNat ∧ version.toNat ≤ Config.maxVersion := by
      simpa [legalQueryVersion, Nat.one_le_iff_ne_zero] using hv
    exact .of_succeed (.specQuery hv'.1 hv'.2) h

theorem execGenPoly_cases {n : Byte} {s t : State} (h : execGenPoly n s = .next t) :
    ExecCase s (.genPoly n) t := by
  unfold execGenPoly at h
  split_ifs at h with hn
  · exact .of_raiseError (by simp [mayRaise]) h
  · exact .of_succeed (.genPoly hn) h

theorem execRsEncode_cases {k n : Byte} {s t : State} (h : execRsEncode k n s = .next t) :
    ExecCase s (.rsEncode k n) t := by
  unfold execRsEncode at h
  split_ifs at h with hb
  · exact .of_raiseError (by simp [mayRaise]) h
  · have hb' : 1 ≤ n.toNat ∧ k.toNat + n.toNat ≤ Config.codeLength := by
      simpa [legalBlock, Nat.one_le_iff_ne_zero] using hb
    obtain ⟨d, hd, h⟩ := withRead_eq_next h
    exact .of_succeed (.rsEncode hb'.1 hb'.2 hd) h

theorem execAssemble_cases {s t : State} (h : execAssemble s = .next t) :
    ExecCase s .assemble t := by
  unfold execAssemble at h
  split_ifs at h with hv
  · exact .of_raiseError (by simp [mayRaise]) h
  · obtain ⟨ecc, he, h⟩ := withRead_eq_next h
    obtain ⟨stream, hs, h⟩ := withRead_eq_next h
    exact .of_succeed (.assemble (by simpa using hv) he hs) h

theorem execCwNext_cases {s t : State} (h : execCwNext s = .next t) : ExecCase s .cwNext t := by
  unfold execCwNext at h
  split_ifs at h with hv hi
  · exact .of_raiseError (by simp [mayRaise]) h
  · exact .of_raiseError (by simp [mayRaise]) h
  · obtain ⟨b, hb, h⟩ := withRead_eq_next h
    exact .of_succeed (.cwNext (by simpa using hv) (by omega) hb) h

theorem execFrameInit_cases {s t : State} (h : execFrameInit s = .next t) :
    ExecCase s .frameInit t := by
  unfold execFrameInit at h
  split_ifs at h with hv
  · exact .of_raiseError (by simp [mayRaise]) h
  · exact .of_succeed (.frameInit (by simpa using hv)) h

theorem execFillNext_cases {s t : State} (h : execFillNext s = .next t) :
    ExecCase s .fillNext t := by
  unfold execFillNext at h
  split_ifs at h with hn
  · exact .of_raiseError (by simp [mayRaise]) h
  · dsimp only at h
    split at h
    · cases h
    · exact .of_raiseError (by simp [mayRaise]) h
    · next hf => exact .of_succeed (.fillNext hn hf) h

theorem execFrameFill_cases {s t : State} (h : execFrameFill s = .next t) :
    ExecCase s .frameFill t := by
  unfold execFrameFill at h
  split_ifs at h with hn hv
  · exact .of_raiseError (by simp [mayRaise]) h
  · exact .of_raiseError (by simp [mayRaise]) h
  · obtain ⟨stream, hs, h⟩ := withRead_eq_next h
    have hn' : s.frameStage ≠ .none ∧ s.specValid = true := by simpa using hn
    split at h
    · cases h
    · exact .of_raiseError (by simp [mayRaise]) h
    · next hf => exact .of_succeed (.frameFill hn'.1 hn'.2 (not_not.1 hv) hs hf) h

theorem execMask_cases {m : BitVec 3} {s t : State} (h : execMask m s = .next t) :
    ExecCase s (.mask m) t := by
  unfold execMask at h
  split_ifs at h with hf hw
  · exact .of_raiseError (by simp [mayRaise]) h
  · exact .of_succeed (.mask (by simpa using hf) (by simpa using hw)) h

/-- Every next state of a command is one of its two ends. -/
theorem exec_cases {i : Instr} {s t : State} (h : exec i s = .next t) : ExecCase s i t := by
  cases i with
  | nop => exact .of_succeed .nop h
  | softReset => exact .of_succeed .softReset h
  | selClear => exact .of_succeed .selClear h
  | selAdd mode count => exact execSelAdd_cases h
  | selRun version level => exact execSelRun_cases h
  | specQuery version level => exact execSpecQuery_cases h
  | genPoly n => exact execGenPoly_cases h
  | rsEncode k n => exact execRsEncode_cases h
  | assemble => exact execAssemble_cases h
  | cwReset => exact .of_succeed .cwReset h
  | cwNext => exact execCwNext_cases h
  | frameInit => exact execFrameInit_cases h
  | fillReset => exact .of_succeed .fillReset h
  | fillNext => exact execFillNext_cases h
  | frameFill => exact execFrameFill_cases h
  | mask m => exact execMask_cases h

/-- No command raises the code of success, nor EngineConstructionFailure, which R125 gives to none. -/
theorem not_mem_mayRaise (i : Instr) :
    ErrCode.ok ∉ mayRaise i ∧ ErrCode.engineConstructionFailure ∉ mayRaise i := by
  cases i <;> simp [mayRaise]

/-! ### The commands' frame: CMD and ERR -/

theorem Succeeds.cmd_eq {s u : State} {i : Instr} (h : Succeeds s i u) (hi : i ≠ .softReset) :
    u.cmd = s.cmd := by
  cases h with
  | softReset => exact absurd rfl hi
  | _ => rfl

theorem Succeeds.err_eq {s u : State} {i : Instr} (h : Succeeds s i u) (hi : i ≠ .softReset) :
    u.err = s.err := by
  cases h with
  | softReset => exact absurd rfl hi
  | _ => rfl

/-- Settles O35: an error end leaves a code that is not 0, and a success end writes ERRCODE and BUSY
alone over the writes of the command's rule. -/
theorem completionClearsBusyAndKeepsErr : Obligations.CompletionClearsBusyAndKeepsErr := by
  unfold Obligations.CompletionClearsBusyAndKeepsErr
  intro i s t h
  cases exec_cases h with
  | @fails c hc =>
    refine ⟨rfl, fun _ => rfl, fun h0 _ => ?_⟩
    have : c = .ok := errCode_eq_zero.1 h0
    exact absurd (this ▸ hc) (not_mem_mayRaise i).1
  | succeeds hu => exact ⟨rfl, hu.cmd_eq, fun _ => hu.err_eq⟩

end Sys2Proof.Machine
end

section
/-! PROOFS. The address map by ranges, and what a step can do: the Engine's command, or the Host's access
at the port. -/

namespace Sys2Proof.Machine

open Sys2Proof

/-! ### The address map, by ranges -/

theorem regionOf_eq_reg_iff {a off : Nat} : regionOf a = some (.reg off) ↔ a ≤ 0xFF ∧ a = off := by
  simp [regionOf, ite_eq_iff]

theorem regionOf_eq_buffer_iff {a : Nat} : regionOf a = some .buffer ↔
    (0x1000 ≤ a ∧ a ≤ 0x30FF) ∨ (0x4000 ≤ a ∧ a ≤ 0x4FFF) := by
  simp [regionOf, ite_eq_iff]
  omega

theorem regionOf_eq_genBuf_iff {a : Nat} :
    regionOf a = some .genBuf ↔ 0x3100 ≤ a ∧ a ≤ 0x31FF := by
  simp [regionOf, ite_eq_iff]
  omega

theorem regionOf_eq_segTable_iff {a i : Nat} : regionOf a = some (.segTable i) ↔
    0x3400 ≤ a ∧ a ≤ 0x37FF ∧ (a - 0x3400) / 4 = i := by
  simp [regionOf, ite_eq_iff]
  omega

theorem regionOf_eq_frame_iff {a r c : Nat} : regionOf a = some (.frame r c) ↔
    0x10000 ≤ a ∧ a ≤ 0x1B0FF ∧ (a - 0x10000) % 256 ≤ 176 ∧
      (a - 0x10000) / 256 = r ∧ (a - 0x10000) % 256 = c := by
  simp [regionOf, ite_eq_iff]
  omega

theorem range_of_frame {a r c : Nat} (h : regionOf a = some (.frame r c)) :
    0x10000 ≤ a ∧ a ≤ 0x1B0FF := by
  obtain ⟨lo, hi, -⟩ := regionOf_eq_frame_iff.1 h
  exact ⟨lo, hi⟩

/-- A byte the Host can write: of a buffer or of the frame (R37, R40, R46). -/
def hostWritable (a : Nat) : Prop :=
  regionOf a = some .buffer ∨ ∃ r c, regionOf a = some (.frame r c)

theorem hostWritable.range {a : Nat} (h : hostWritable a) :
    (0x1000 ≤ a ∧ a ≤ 0x30FF) ∨ (0x4000 ≤ a ∧ a ≤ 0x4FFF) ∨ (0x10000 ≤ a ∧ a ≤ 0x1B0FF) := by
  rcases h with h | ⟨r, c, h⟩
  · have := regionOf_eq_buffer_iff.1 h
    omega
  · have := range_of_frame h
    omega

/-- What the storage keeps of a byte the Host writes: bits 1:0 of a cell, all bits elsewhere (R40). -/
def keptByte (a : Nat) (v : Byte) : Byte := if frameBase ≤ a then v &&& cellBits else v

theorem keptByte_of_buffer {a : Nat} (h : regionOf a = some .buffer) (v : Byte) : keptByte a v = v := by
  have := regionOf_eq_buffer_iff.1 h
  rw [keptByte, if_neg (by unfold frameBase; omega)]

theorem keptByte_of_frame {a r c : Nat} (h : regionOf a = some (.frame r c)) (v : Byte) :
    keptByte a v = v &&& cellBits := by
  have := range_of_frame h
  rw [keptByte, if_pos (by unfold frameBase; omega)]

/-- A cell keeps a byte below 4 (R40). -/
theorem and_cellBits_lt (v : Byte) : (v &&& cellBits).toNat < 4 := by
  have : (v &&& cellBits).toNat ≤ cellBits.toNat := by
    rw [BitVec.toNat_and]
    exact Nat.and_le_right
  have h3 : cellBits.toNat = 3 := rfl
  omega

/-! ### What a Host access does while BUSY = 0 -/

/-- An access of the idle block: it is served without an effect on the block, or it writes one byte of the
storage, or CMD, or STATUS (R46, R48). -/
inductive HostCase (s : State) : HostAction → State → Prop
  | served {a : HostAction} {replies : List Word} {draws : Nat} :
      HostCase s a { s with replies := replies, draws := draws }
  | stored {addr : Word} {v : Byte} : hostWritable addr.toNat →
      HostCase s (.sb addr v) { s with mem := s.mem.write addr.toNat (keptByte addr.toNat v) }
  | issued {w : Word} : HostCase s (.sw 0x000#32 w) (s.issue w)
  | cleared {v : Word} : HostCase s (.sw 0x004#32 v) (writeStatus s v)

theorem hostLoadStored_cases (addr : Nat) (keep : Byte) (a : HostAction) (s : State) :
    HostCase s a (hostLoadStored addr keep s) := by
  unfold hostLoadStored
  split
  · exact .served
  · exact .served

theorem hostLoadWord_cases {addr : Word} {s t : State} (h : hostLoadWord addr s = .next t) :
    HostCase s (.lw addr) t := by
  unfold hostLoadWord at h
  split_ifs at h
  split at h <;> cases h
  · exact .served
  · exact .served

theorem hostLoadByte_cases {addr : Word} {s t : State} (h : hostLoadByte addr s = .next t) :
    HostCase s (.lb addr) t := by
  unfold hostLoadByte at h
  split at h <;> cases h
  · exact hostLoadStored_cases _ _ _ _
  · exact hostLoadStored_cases _ _ _ _
  · exact .served
  · exact .served
  · exact hostLoadStored_cases _ _ _ _

theorem offset_of_ofOffset {off : Nat} {r : Reg} (h : Reg.ofOffset off = some r) : r.offset = off := by
  simpa using List.find?_some h

/-- Only CMD and STATUS have an effect when written (R22). -/
theorem writeReg_cases {addr v : Word} {s : State} :
    HostCase s (.sw addr v) (writeReg (Reg.ofOffset addr.toNat) v s) := by
  unfold writeReg
  split
  · next h =>
    obtain rfl : addr = 0x000#32 := BitVec.eq_of_toNat_eq (offset_of_ofOffset h).symm
    exact .issued
  · next h =>
    obtain rfl : addr = 0x004#32 := BitVec.eq_of_toNat_eq (offset_of_ofOffset h).symm
    exact .cleared
  · exact .served

theorem hostStoreWord_cases {addr v : Word} {s t : State} (h : hostStoreWord addr v s = .next t) :
    HostCase s (.sw addr v) t := by
  unfold hostStoreWord at h
  split_ifs at h
  split at h <;> cases h
  · next hr =>
    obtain ⟨-, rfl⟩ := regionOf_eq_reg_iff.1 hr
    exact writeReg_cases
  · exact .served

theorem hostStoreByte_cases {addr : Word} {v : Byte} {s t : State}
    (h : hostStoreByte addr v s = .next t) : HostCase s (.sb addr v) t := by
  unfold hostStoreByte at h
  split at h <;> cases h
  · next hr =>
    have := HostCase.stored (s := s) (v := v) (.inl hr)
    rwa [keptByte_of_buffer hr] at this
  · exact .served
  · exact .served
  · exact .served
  · next r c hr =>
    have := HostCase.stored (s := s) (v := v) (.inr ⟨r, c, hr⟩)
    rwa [keptByte_of_frame hr] at this

theorem hostAccess_cases {a : HostAction} {s t : State} (h : hostAccess a s = .next t) :
    HostCase s a t := by
  cases a with
  | lw addr => exact hostLoadWord_cases h
  | lb addr => exact hostLoadByte_cases h
  | sw addr v => exact hostStoreWord_cases h
  | sb addr v => exact hostStoreByte_cases h
  | wait =>
    cases h
    exact .served

/-! ### What a step can do -/

/-- A step of the Engine ends the command in CMD; a step of the Host serves the access at the port, which
while BUSY = 1 is a read (R51, R139); a step with nothing to do is none (log entry 6). -/
inductive StepCase (s : State) : State → Prop
  | command {i : Instr} {t : State} : s.busy = true → decode s.cmd = .ok i → ExecCase s i t →
      StepCase s t
  | illegal : s.busy = true → StepCase s (s.fail .illegalCommand)
  | polled {port : List HostAction} {replies : List Word} {left : Nat} :
      StepCase s { s with port := port, replies := replies, busyLeft := left }
  | host {a : HostAction} {rest : List HostAction} {t : State} : s.busy = false →
      s.port = a :: rest → HostCase { s with port := rest } a t → StepCase s t

theorem engineStep_cases {s t : State} (hb : s.busy = true) (h : engineStep s = .next t) :
    StepCase s t := by
  cases hd : decode s.cmd with
  | ok i => exact .command hb hd (exec_cases (engineStep_of_decode hd ▸ h))
  | error e =>
    rw [engineStep_of_error hd] at h
    cases h
    exact .illegal hb

theorem busyRead_cases (a : HostAction) (rest : List HostAction) (s : State) :
    StepCase s (busyRead a rest s) := by
  cases a <;> exact .polled

theorem busyStep_cases {s t : State} (hb : s.busy = true) (h : busyStep s = .next t) :
    StepCase s t := by
  unfold busyStep at h
  split at h
  · exact engineStep_cases hb h
  · split_ifs at h
    · exact engineStep_cases hb h
    · cases h
      exact busyRead_cases _ _ _

theorem idleStep_cases {s t : State} (hb : s.busy = false) (h : idleStep s = .next t) :
    StepCase s t := by
  unfold idleStep at h
  split at h
  · cases h
    exact .polled
  · next hp => exact .host hb hp (hostAccess_cases h)

/-- Every next state of a step is one of these. -/
theorem step_cases {s t : State} (h : step s = .next t) : StepCase s t := by
  cases hb : s.busy with
  | true => exact busyStep_cases hb (step_of_busy hb ▸ h)
  | false => exact idleStep_cases hb (step_of_idle hb ▸ h)

end Sys2Proof.Machine
end

section
/-! PROOFS. The Host's accesses to the idle block, and the step of the busy one. -/

namespace Sys2Proof.Machine

open Sys2Proof

/-! ### Which step it is -/

theorem step_of_access {s : State} {a : HostAction} {rest : List HostAction} (hb : s.busy = false)
    (hp : s.port = a :: rest) : step s = hostAccess a { s with port := rest } := by
  rw [step_of_idle hb, idleStep, hp]

theorem busyStep_of_engine {s : State}
    (h : s.port = [] ∨ ∃ a rest, s.port = a :: rest ∧ allowedWhileBusy a = true ∧ s.busyLeft = 0) :
    busyStep s = engineStep s := by
  rcases h with h | ⟨a, rest, h, ha, hl⟩
  · simp [busyStep, h]
  · simp [busyStep, h, ha, hl]

theorem decodeTableWord_eq_some_iff {nbits w : Nat} {i : Instr} :
    decodeTableWord nbits w = some i ↔ decode (tableWord nbits w) = .ok i := by
  unfold decodeTableWord
  cases decode (tableWord nbits w) <;> simp

/-- The Engine's step runs the command in CMD on the state as it stands (R23, R51). -/
theorem step_eq_exec {s : State} {i : Instr} (hb : s.busy = true) (hd : decode s.cmd = .ok i)
    (hp : s.port = [] ∨ ∃ a rest, s.port = a :: rest ∧ allowedWhileBusy a = true ∧ s.busyLeft = 0) :
    step s = exec i s := by
  rw [step_of_busy hb, busyStep_of_engine hp, engineStep_of_decode hd]

/-- Settles O47: both clauses are the Engine's step, of a state whose port lets the Engine move. -/
theorem stepRunsDecodedCommand : Obligations.StepRunsDecodedCommand := by
  unfold Obligations.StepRunsDecodedCommand
  exact ⟨fun s i hb hd hp => step_eq_exec hb hd hp, fun s nbits w i hd =>
    step_eq_exec (s := s.withFetchWord nbits w) rfl (decodeTableWord_eq_some_iff.1 hd) (.inl rfl)⟩

/-! ### Registers that an update of the Host's side leaves -/

/-- No register reads the storage, the port, or the counters of the free values (R41). -/
theorem read_of_hostSide (r : Reg) (s : State) (m : Memory) (p : List HostAction) (q : List Word)
    (d : Nat) : r.read { s with mem := m, port := p, replies := q, draws := d } = r.read s := by
  cases r <;> rfl

theorem ofOffset_offset (r : Reg) : Reg.ofOffset r.offset = some r := by
  cases r <;> rfl

theorem readOffset_offset (r : Reg) (s : State) : readOffset s r.offset = r.read s := by
  rw [readOffset, ofOffset_offset]

theorem offset_mod_four (r : Reg) : r.offset % 4 = 0 := by
  cases r <;> rfl

theorem offset_le (r : Reg) : r.offset ≤ 0x060 := by
  cases r <;> decide

/-- No register stands above GEN_DEGREE: those offsets are reserved (R21, R22). -/
theorem readOffset_reserved {off : Nat} (h : 0x060 < off) (s : State) : readOffset s off = 0 := by
  cases hr : Reg.ofOffset off with
  | none => rw [readOffset, hr]
  | some r =>
    have := offset_of_ofOffset hr
    have := offset_le r
    omega

/-! ### Word accesses -/

theorem toNat_ofNat_of_le {a : Nat} (h : a ≤ 0x1B0FF) : (BitVec.ofNat 32 a).toNat = a := by
  rw [BitVec.toNat_ofNat, Nat.mod_eq_of_lt (by omega)]

theorem hostLoadWord_reg {off : Nat} (h4 : off % 4 = 0) (h : off ≤ 0xFF) (s : State) :
    hostLoadWord (BitVec.ofNat 32 off) s = .next (s.reply (readOffset s off)) := by
  rw [hostLoadWord, toNat_ofNat_of_le (by omega), if_neg (by omega),
    regionOf_eq_reg_iff.2 ⟨h, rfl⟩]

theorem regionOf_segEntry {i : Nat} (h : i < 256) :
    regionOf (segBase + 4 * i) = some (.segTable i) := by
  have hs : segBase = 0x3400 := rfl
  exact regionOf_eq_segTable_iff.2 (by omega)

theorem hostLoadWord_segTable {i : Nat} (h : i < 256) (s : State) :
    hostLoadWord (BitVec.ofNat 32 (segBase + 4 * i)) s = .next (s.reply (segTableWord s i)) := by
  have hs : segBase = 0x3400 := rfl
  rw [hostLoadWord, toNat_ofNat_of_le (by omega), if_neg (by omega), regionOf_segEntry h]

/-- Settles O51: the map sends each offset to its register and each entry's address to the entry, and the
port the access leaves behind changes no register. -/
theorem wordReadsReturnRegisters : Obligations.WordReadsReturnRegisters := by
  unfold Obligations.WordReadsReturnRegisters
  intro s rest hb
  refine ⟨fun r hp => ?_, fun off lo hi h4 hp => ?_, fun i hi hp => ?_⟩
  · have hr := offset_le r
    rw [step_of_access hb hp, hostAccess, hostLoadWord_reg (offset_mod_four r) (by omega),
      readOffset_offset, read_of_hostSide r s s.mem rest s.replies s.draws]
    rfl
  · rw [step_of_access hb hp, hostAccess, hostLoadWord_reg h4 (by omega),
      readOffset_reserved (by omega)]
    rfl
  · rw [step_of_access hb hp, hostAccess, hostLoadWord_segTable hi]
    rfl

theorem hostStoreWord_cmd (w : Word) (s : State) : hostStoreWord 0x000#32 w s = .next (s.issue w) :=
  rfl

theorem hostStoreWord_status (v : Word) (s : State) :
    hostStoreWord 0x004#32 v s = .next (writeStatus s v) := rfl

theorem read_issue {r : Reg} (h : r ∉ [Reg.cmd, .status]) (s : State) (w : Word) :
    r.read (s.issue w) = r.read s := by
  cases r with
  | cmd | status => simp at h
  | _ => rfl

theorem read_writeStatus {r : Reg} (h : r ∉ [Reg.status]) (s : State) (v : Word) :
    r.read (writeStatus s v) = r.read s := by
  cases r with
  | status => simp at h
  | _ => rfl

/-- Settles O49: the step is the issue of w on the state behind the access. -/
theorem cmdWriteIssuesCommand : Obligations.CmdWriteIssuesCommand := by
  unfold Obligations.CmdWriteIssuesCommand
  intro s w rest hb hp
  refine ⟨({ s with port := rest } : State).issue w, ?_, rfl, rfl, rfl, ⟨rfl, rfl⟩, rfl, fun r hr => ?_,
    fun _ => rfl, rfl, rfl, rfl⟩
  · rw [step_of_access hb hp, hostAccess, hostStoreWord_cmd]
  · rw [read_issue hr, read_of_hostSide r s s.mem rest s.replies s.draws]

/-- Settles O50: the step is the write of STATUS on the state behind the access. -/
theorem statusWriteClearsErr : Obligations.StatusWriteClearsErr := by
  unfold Obligations.StatusWriteClearsErr
  intro s v rest hb hp
  refine ⟨writeStatus { s with port := rest } v, ?_, ?_, hb, ⟨rfl, rfl⟩, rfl, fun r hr => ?_,
    fun _ => rfl, rfl, rfl, rfl, rfl⟩
  · rw [step_of_access hb hp, hostAccess, hostStoreWord_status]
  · rw [writeStatus_err]
    cases v.getLsbD 1 <;> simp
  · rw [read_writeStatus hr, read_of_hostSide r s s.mem rest s.replies s.draws]

/-! ### Byte accesses -/

/-- A byte of the storage as the Host reads it (R38, R40). -/
theorem hostLoadByte_stored {a : Nat} (h : hostWritable a ∨ regionOf a = some .genBuf) (s : State) :
    hostLoadByte (BitVec.ofNat 32 a) s =
      .next (hostLoadStored a (if frameBase ≤ a then cellBits else 0xFF) s) := by
  have hf : frameBase = 0x10000 := rfl
  rcases h with (hr | ⟨r, c, hr⟩) | hr
  · have := regionOf_eq_buffer_iff.1 hr
    rw [hostLoadByte, toNat_ofNat_of_le (by omega), hr, if_neg (by omega)]
  · have := range_of_frame hr
    rw [hostLoadByte, toNat_ofNat_of_le (by omega), hr, if_pos (by omega)]
  · have := regionOf_eq_genBuf_iff.1 hr
    rw [hostLoadByte, toNat_ofNat_of_le (by omega), hr, if_neg (by omega)]

/-- What the Host reads of a byte is what the storage could keep of it. -/
theorem and_mask_eq_keptByte (a : Nat) (v : Byte) :
    v &&& (if frameBase ≤ a then cellBits else 0xFF) = keptByte a v := by
  unfold keptByte
  split
  · rfl
  · exact BitVec.and_allOnes

theorem keptByte_idem (a : Nat) (v : Byte) : keptByte a (keptByte a v) = keptByte a v := by
  unfold keptByte
  split
  · rw [BitVec.and_assoc, BitVec.and_self]
  · rfl

theorem hostLoadStored_of_some {s : State} {a : Nat} {v : Byte} (h : s.mem.read a = some v) :
    hostLoadStored a (if frameBase ≤ a then cellBits else 0xFF) s =
      s.reply ((keptByte a v).setWidth 32) := by
  rw [hostLoadStored, h, ← and_mask_eq_keptByte]

theorem hostLoadStored_of_none {s : State} {a : Nat} (h : s.mem.read a = none) :
    hostLoadStored a (if frameBase ≤ a then cellBits else 0xFF) s =
      { s.reply ((keptByte a (Config.freeByte s.draws)).setWidth 32) with draws := s.draws + 1 } := by
  rw [hostLoadStored, h, ← and_mask_eq_keptByte]

theorem hostStoreByte_writable {a : Nat} (h : hostWritable a) (v : Byte) (s : State) :
    hostStoreByte (BitVec.ofNat 32 a) v s =
      .next { s with mem := s.mem.write a (keptByte a v) } := by
  have hr := h.range
  rw [hostStoreByte, toNat_ofNat_of_le (by omega)]
  rcases h with h | ⟨r, c, h⟩
  · rw [h, keptByte_of_buffer h]
  · rw [h, keptByte_of_frame h]

theorem step_storeByte {s : State} {a : Nat} {v : Byte} {rest : List HostAction}
    (hb : s.busy = false) (hp : s.port = .sb (BitVec.ofNat 32 a) v :: rest) (ha : hostWritable a) :
    step s = .next { s with port := rest, mem := s.mem.write a (keptByte a v) } := by
  rw [step_of_access hb hp, hostAccess, hostStoreByte_writable ha]

theorem step_loadByte_written {s : State} {a : Nat} {v : Byte} {rest : List HostAction}
    (hb : s.busy = false) (hp : s.port = .lb (BitVec.ofNat 32 a) :: rest)
    (ha : hostWritable a ∨ regionOf a = some .genBuf) (hv : s.mem.read a = some v) :
    step s = .next { s with port := rest, replies := (keptByte a v).setWidth 32 :: s.replies } := by
  rw [step_of_access hb hp, hostAccess, hostLoadByte_stored ha,
    hostLoadStored_of_some (s := { s with port := rest }) hv]
  rfl

theorem step_loadByte_unwritten {s : State} {a : Nat} {rest : List HostAction}
    (hb : s.busy = false) (hp : s.port = .lb (BitVec.ofNat 32 a) :: rest)
    (ha : hostWritable a ∨ regionOf a = some .genBuf) (hn : s.mem.read a = none) :
    step s = .next { s with
      port := rest
      replies := (keptByte a (Config.freeByte s.draws)).setWidth 32 :: s.replies
      draws := s.draws + 1 } := by
  rw [step_of_access hb hp, hostAccess, hostLoadByte_stored ha,
    hostLoadStored_of_none (s := { s with port := rest }) hn]
  rfl

/-- Settles O54: the write keeps of the byte what the address has, and the read keeps no less of it. -/
theorem hostBytesReadBack : Obligations.HostBytesReadBack := by
  unfold Obligations.HostBytesReadBack
  intro s a v rest hb hm ha hp
  have hload := step_loadByte_written
    (s := { s with port := .lb (BitVec.ofNat 32 a) :: rest, mem := s.mem.write a (keptByte a v) })
    hb rfl (.inl ha) (Memory.read_write_same s.mem a _ hm)
  rw [keptByte_idem] at hload
  exact ⟨_, _, step_storeByte hb hp ha, fun x hx => Memory.read_write_ne s.mem _ hm (Ne.symm hx),
    fun r _ => read_of_hostSide r s _ _ s.replies s.draws, hload, rfl, fun _ => rfl,
    fun r _ => read_of_hostSide r _ _ rest _ _, rfl⟩

/-- Settles O55: with no entry at the address the read answers the free value of the present count. -/
theorem unwrittenHostReadIsFree : Obligations.UnwrittenHostReadIsFree := by
  unfold Obligations.UnwrittenHostReadIsFree
  intro s a rest hb ha hn hp
  have ha' : hostWritable a ∨ regionOf a = some .genBuf := by
    rcases ha with h | h | h
    · exact .inl (.inl h)
    · exact .inr h
    · exact .inl (.inr h)
  exact ⟨_, step_loadByte_unwritten hb hp ha' hn, rfl, rfl,
    fun r _ => read_of_hostSide r s s.mem rest _ _, fun _ => rfl, rfl⟩

end Sys2Proof.Machine
end

section
/-! PROOFS. Which steps write SPEC_VALID and FRAME_STAGE, and that no command sees the Host's side of the
port. -/

namespace Sys2Proof.Machine

open Sys2Proof

/-! ### SPEC_VALID and FRAME_STAGE -/

/-- A Host access writes no flag but ERR and BUSY (R22, R48). -/
theorem HostCase.keeps_stages {s t : State} {a : HostAction} (h : HostCase s a t) : stagesKept s t := by
  cases h <;> exact ⟨rfl, rfl⟩

/-- A step that changes SPEC_VALID or FRAME_STAGE is a command that succeeds. -/
theorem StepCase.stages {s t : State} (h : StepCase s t) :
    stagesKept s t ∨ ∃ i u, s.busy = true ∧ decode s.cmd = .ok i ∧ Succeeds s i u ∧ t = u.complete := by
  cases h with
  | command hb hd he =>
    cases he with
    | fails => exact .inl ⟨rfl, rfl⟩
    | succeeds hu => exact .inr ⟨_, _, hb, hd, hu, rfl⟩
  | illegal => exact .inl ⟨rfl, rfl⟩
  | polled => exact .inl ⟨rfl, rfl⟩
  | host _ _ hc => exact .inl hc.keeps_stages

theorem Succeeds.specValid_falls {s u : State} {i : Instr} (h : Succeeds s i u)
    (hs : s.specValid = true) (hu : u.specValid = false) : i = .softReset := by
  cases h with
  | softReset => rfl
  | selRun | specQuery => cases hu
  | _ => exact absurd (hs.symm.trans hu) (by simp)

theorem Succeeds.specValid_rises {s u : State} {i : Instr} (h : Succeeds s i u)
    (hs : s.specValid = false) (hu : u.specValid = true) :
    ∃ version level, i = .selRun version level ∨ i = .specQuery version level := by
  cases h with
  | selRun => exact ⟨_, _, .inl rfl⟩
  | specQuery => exact ⟨_, _, .inr rfl⟩
  | softReset => cases hu
  | _ => exact absurd (hs.symm.trans hu) (by simp)

theorem Succeeds.frameStage {s u : State} {i : Instr} (h : Succeeds s i u) :
    u.frameStage = s.frameStage ∨
      (u.frameStage = .skeleton ∧ i = .frameInit) ∨ (u.frameStage = .filled ∧ i = .frameFill) ∨
      (u.frameStage = .masked ∧ ∃ m, i = .mask m) ∨ (u.frameStage = .none ∧ i = .softReset) := by
  cases h with
  | frameInit => exact .inr (.inl ⟨rfl, rfl⟩)
  | frameFill => exact .inr (.inr (.inl ⟨rfl, rfl⟩))
  | mask => exact .inr (.inr (.inr (.inl ⟨rfl, _, rfl⟩)))
  | softReset => exact .inr (.inr (.inr (.inr ⟨rfl, rfl⟩)))
  | _ => exact .inl rfl

/-- Past NONE the spec is valid, so without one MASK is not ready (R124). -/
theorem execMask_without_spec {m : BitVec 3} {s : State} (hf : frameOk s) (hs : s.specValid = false) :
    execMask m s = .next (s.fail .notReady) := by
  have hn : s.frameStage = .none := by
    by_contra hn
    exact absurd ((hf.2.1 hn).1.symm.trans hs) (by simp)
  simp [execMask, hn, FrameStage.isFilled]

/-- Settles O39: the commands that write SPEC_VALID are read off the ends of the sixteen commands, and the
five readers check it, MASK through FRAME_STAGE. -/
theorem specValidChangesOnlyByItsCommands : Obligations.SpecValidChangesOnlyByItsCommands := by
  unfold Obligations.SpecValidChangesOnlyByItsCommands
  refine ⟨fun s t h hs ht => ?_, fun s t h hs ht => ?_, fun i hi s hs => ?_,
    fun m s hf hs => execMask_without_spec hf hs⟩
  · rcases (step_cases h).stages with hk | ⟨i, u, hb, hd, hu, rfl⟩
    · exact absurd (hk.1.symm.trans ht) (by simp [hs])
    · exact ⟨hb, hu.specValid_falls hs ht ▸ hd⟩
  · rcases (step_cases h).stages with hk | ⟨i, u, hb, hd, hu, rfl⟩
    · exact absurd (hk.1.symm.trans ht) (by simp [hs])
    · obtain ⟨version, level, hi⟩ := hu.specValid_rises hs ht
      exact ⟨hb, rfl, version, level, hi.imp (fun h => by rw [hd, h]) (fun h => by rw [hd, h])⟩
  · simp only [List.mem_cons, List.not_mem_nil, or_false] at hi
    rcases hi with rfl | rfl | rfl | rfl
    · simp [exec, execAssemble, hs]
    · simp [exec, execCwNext, hs]
    · simp [exec, execFrameInit, hs]
    · simp [exec, execFrameFill, hs]

/-- Settles O40: the commands that write FRAME_STAGE are read off the ends of the sixteen commands. -/
theorem frameStageChangesOnlyByItsCommands : Obligations.FrameStageChangesOnlyByItsCommands := by
  unfold Obligations.FrameStageChangesOnlyByItsCommands
  intro s t h hne
  rcases (step_cases h).stages with hk | ⟨i, u, hb, hd, hu, rfl⟩
  · exact absurd hk.2 hne
  · refine ⟨hb, ?_⟩
    rcases hu.frameStage with he | ⟨he, rfl⟩ | ⟨he, rfl⟩ | ⟨he, m, rfl⟩ | ⟨he, rfl⟩
    · exact absurd he hne
    · exact .inl ⟨he, hd⟩
    · exact .inr (.inl ⟨he, hd⟩)
    · exact .inr (.inr (.inl ⟨he, m, hd⟩))
    · exact .inr (.inr (.inr ⟨he, hd⟩))

/-! ### The Host's side -/

/-- The state with other accesses waiting, other values read and another count of draws. -/
def State.withHost (s : State) (p : List HostAction) (r : List Word) (d : Nat) : State :=
  { s with port := p, replies := r, draws := d }

/-- An outcome with its next state, if it has one, seen from another Host. -/
def Result.withHost (p : List HostAction) (r : List Word) (d : Nat) : Result → Result
  | .next t => .next (t.withHost p r d)
  | .fault f => .fault f
  | .refused e => .refused e

section
variable {p : List HostAction} {r : List Word} {d : Nat}

theorem withRead_withHost {α : Type} (o : Option α) {k k' : α → Result}
    (h : ∀ x, k' x = Result.withHost p r d (k x)) :
    withRead o k' = Result.withHost p r d (withRead o k) := by
  cases o with
  | none => rfl
  | some x => exact h x

theorem ite_withHost {c : Prop} [Decidable c] {x y x' y' : Result}
    (hx : x' = Result.withHost p r d x) (hy : y' = Result.withHost p r d y) :
    (if c then x' else y') = Result.withHost p r d (if c then x else y) := by
  rw [hx, hy, apply_ite (Result.withHost p r d)]

theorem execSelAdd_withHost (mode : BitVec 3) (count : BitVec 16) (s : State) :
    execSelAdd mode count (s.withHost p r d) = Result.withHost p r d (execSelAdd mode count s) := by
  unfold execSelAdd
  split
  · rfl
  · exact ite_withHost rfl (ite_withHost rfl rfl)

theorem execSelRun_withHost (version : BitVec 6) (level : BitVec 2) (s : State) :
    execSelRun version level (s.withHost p r d) =
      Result.withHost p r d (execSelRun version level s) := by
  unfold execSelRun
  refine ite_withHost rfl (ite_withHost rfl ?_)
  rw [show resolveVersion (s.withHost p r d) = resolveVersion s from rfl]
  cases resolveVersion s version.toNat level.toNat <;> rfl

theorem execFillNext_withHost (s : State) :
    execFillNext (s.withHost p r d) = Result.withHost p r d (execFillNext s) := by
  unfold execFillNext
  refine ite_withHost rfl ?_
  dsimp only [State.withHost, frameWidth]
  split <;> rfl

theorem execFrameFill_withHost (s : State) :
    execFrameFill (s.withHost p r d) = Result.withHost p r d (execFrameFill s) := by
  unfold execFrameFill
  refine ite_withHost rfl (ite_withHost rfl (withRead_withHost _ fun stream => ?_))
  rw [show fillCells (s.withHost p r d) = fillCells s from rfl]
  cases fillCells s <;> rfl

theorem execMask_withHost (m : BitVec 3) (s : State) :
    execMask m (s.withHost p r d) = Result.withHost p r d (execMask m s) := by
  unfold execMask
  refine ite_withHost rfl (ite_withHost rfl ?_)
  simp only [State.withHost, frameWidth, succeed, State.complete, Result.withHost]

/-- A command reads nothing of the Host's side and writes nothing of it. -/
theorem exec_withHost (i : Instr) (s : State) :
    exec i (s.withHost p r d) = Result.withHost p r d (exec i s) := by
  cases i with
  | nop | softReset | selClear | cwReset | fillReset => rfl
  | selAdd mode count => exact execSelAdd_withHost mode count s
  | selRun version level => exact execSelRun_withHost version level s
  | specQuery version level => exact ite_withHost rfl rfl
  | genPoly n => exact ite_withHost rfl rfl
  | rsEncode k n =>
    exact ite_withHost rfl (withRead_withHost _ fun _ => rfl)
  | assemble =>
    exact ite_withHost rfl
      (withRead_withHost _ fun _ => withRead_withHost _ fun _ => rfl)
  | cwNext =>
    exact ite_withHost rfl (ite_withHost rfl (withRead_withHost _ fun _ => rfl))
  | frameInit => exact ite_withHost rfl rfl
  | fillNext => exact execFillNext_withHost s
  | frameFill => exact execFrameFill_withHost s
  | mask m => exact execMask_withHost m s

end

/-- Settles O42: a command commutes with every change of the Host's side. -/
theorem commandsIgnoreTheHostSide : Obligations.CommandsIgnoreTheHostSide := by
  unfold Obligations.CommandsIgnoreTheHostSide
  intro i s p r d
  have h := exec_withHost (p := p) (r := r) (d := d) i s
  refine ⟨fun t ht => ?_, fun f hf => ?_⟩
  · rw [ht] at h
    exact h
  · rw [hf] at h
    exact h

end Sys2Proof.Machine
end

section
/-! PROOFS. What keeps the storage legal: an update of the storage that stays inside the map, drops no
written mark and leaves GEN_BUF, for each operation on the storage. -/

namespace Sys2Proof.Machine

open Sys2Proof

/-! ### Legal storage -/

/-- The storage is canonical, inside the map, and its cells have two bits: storageOk, of a memory. -/
def Memory.ok (m : Memory) : Prop :=
  m.wf ∧ (∀ e ∈ m, isStorage e.1 = true) ∧ ∀ e ∈ m, frameBase ≤ e.1 → e.2.toNat < 4

theorem storageOk_iff {s : State} : storageOk s ↔ s.mem.ok := Iff.rfl

theorem isStorage_of_buffer {a : Nat} (h : regionOf a = some .buffer) : isStorage a = true := by
  simp [isStorage, h]

theorem isStorage_of_genBuf {a : Nat} (h : regionOf a = some .genBuf) : isStorage a = true := by
  simp [isStorage, h]

theorem isStorage_of_frame {a r c : Nat} (h : regionOf a = some (.frame r c)) :
    isStorage a = true := by
  simp [isStorage, h]

theorem hostWritable.isStorage {a : Nat} (h : hostWritable a) : isStorage a = true := by
  rcases h with h | ⟨r, c, h⟩
  · exact isStorage_of_buffer h
  · exact isStorage_of_frame h

theorem hostWritable_cellAddr {r c : Nat} (hr : r < 177) (hc : c < 177) :
    hostWritable (cellAddr r c) := .inr ⟨r, c, regionOf_cellAddr hr hc⟩

/-- A range below FRAME and inside the storage may be written with any bytes. -/
theorem Memory.ok.writeRange {m : Memory} (hm : m.ok) {base : Nat} {bs : List Byte}
    (hs : ∀ a, base ≤ a → a < base + bs.length → isStorage a = true)
    (hf : base + bs.length ≤ frameBase) : (m.writeRange base bs).ok := by
  obtain ⟨hwf, hst, hcell⟩ := hm
  refine ⟨Memory.wf_writeRange base bs hwf, fun e he => ?_, fun e he hb => ?_⟩
  · rcases Memory.mem_writeRange he with h | h
    · exact hst e h
    · exact hs e.1 h.1 h.2
  · rcases Memory.mem_writeRange he with h | h
    · exact hcell e h hb
    · omega

theorem Memory.isSome_read_writeRange {m : Memory} (base : Nat) (bs : List Byte) {a : Nat}
    (ha : (m.read a).isSome) : ((m.writeRange base bs).read a).isSome := by
  rw [Memory.read_writeRange]
  split
  · next h => simp [show a - base < bs.length by omega]
  · exact ha

/-! ### Cells -/

/-- The format cells lie inside every symbol (R123). -/
theorem formatCells_lt {w i : Nat} (hw : 21 ≤ w) (hi : i < 15) :
    (formatCell1 i).1 < w ∧ (formatCell1 i).2 < w ∧ (formatCell2 w i).1 < w ∧
      (formatCell2 w i).2 < w := by
  unfold formatCell1 formatCell2
  split_ifs <;> dsimp only <;> omega

theorem flipData_lt (flip : Bool) {b : Byte} (h : b.toNat < 4) : (flipData flip b).toNat < 4 := by
  unfold flipData
  split
  · exact h
  · exact cellByte_lt _ _

theorem mem_flipSymbol {m : Memory} {w : Nat} {flip : Nat → Nat → Bool} {e : Host.Cell}
    (h : e ∈ flipSymbol m w flip) :
    ∃ e' ∈ m, e.1 = e'.1 ∧ (e.2 = e'.2 ∨ ∃ b, e.2 = flipData b e'.2) := by
  obtain ⟨e', he', rfl⟩ := List.mem_map.1 h
  refine ⟨e', he', ?_⟩
  split
  · exact ⟨rfl, .inr ⟨_, rfl⟩⟩
  · exact ⟨rfl, .inl rfl⟩

theorem skeletonByte_lt (v w : Nat) (pairs : List (Nat × Nat)) (r c : Nat) :
    (skeletonByte v w pairs r c).toNat < 4 := by
  unfold skeletonByte
  split_ifs
  · split <;> exact cellByte_lt _ _
  · exact cellByte_lt _ _

theorem mem_writeFrame {m : Memory} {cell : Nat → Nat → Byte} {e : Host.Cell}
    (h : e ∈ m.writeFrame cell) : e ∈ m ∨ ∃ r < 177, ∃ c < 177, e = (cellAddr r c, cell r c) := by
  rw [Memory.writeFrame, List.mem_append, List.mem_append] at h
  rcases h with (h | h) | h
  · exact .inl (List.mem_filter.1 h).1
  · exact .inr (mem_frameCells.1 h)
  · exact .inl (List.mem_filter.1 h).1

/-- An address of the FRAME region that the storage has is that of a cell (R43). -/
theorem exists_cellAddr {a : Nat} (hs : isStorage a = true) (lo : frameBase ≤ a) :
    ∃ r < 177, ∃ c < 177, a = cellAddr r c := by
  have hf : frameBase = 0x10000 := rfl
  unfold isStorage at hs
  split at hs
  · next h =>
    have := regionOf_eq_buffer_iff.1 h
    omega
  · next h =>
    have := regionOf_eq_genBuf_iff.1 h
    omega
  · next r c h =>
    have := regionOf_eq_frame_iff.1 h
    exact ⟨r, by omega, c, by omega, by unfold cellAddr; omega⟩
  all_goals cases hs

/-! ### Legal updates of the storage -/

/-- The storage m' is legal, every byte written in m is written in it, and GEN_BUF reads as in m. -/
structure LegalUpdate (m m' : Memory) : Prop where
  ok : m'.ok
  written : ∀ a, (m.read a).isSome → (m'.read a).isSome
  genBuf : ∀ a, within genBase 256 a → m'.read a = m.read a

namespace LegalUpdate

theorem refl {m : Memory} (hm : m.ok) : LegalUpdate m m := ⟨hm, fun _ h => h, fun _ _ => rfl⟩

theorem trans {m m' m'' : Memory} (h : LegalUpdate m m') (h' : LegalUpdate m' m'') :
    LegalUpdate m m'' :=
  ⟨h'.ok, fun a ha => h'.written a (h.written a ha), fun a ha => (h'.genBuf a ha).trans (h.genBuf a ha)⟩

/-- A byte the Host can write lies outside GEN_BUF (R46). -/
theorem write {m : Memory} (hm : m.ok) {a : Nat} {v : Byte} (ha : hostWritable a)
    (hv : frameBase ≤ a → v.toNat < 4) : LegalUpdate m (m.write a v) := by
  obtain ⟨hwf, hst, hcell⟩ := hm
  refine ⟨⟨Memory.wf_write a v hwf, fun e he => ?_, fun e he => ?_⟩, fun b hb => ?_, fun b hb => ?_⟩
  · rcases Memory.mem_write he with rfl | he
    · exact ha.isStorage
    · exact hst e he
  · rcases Memory.mem_write he with rfl | he
    · exact hv
    · exact hcell e he
  · rw [Memory.read_write m a v b hwf]
    split
    · rfl
    · exact hb
  · have := ha.range
    have hg : genBase = 0x3100 := rfl
    unfold within at hb
    exact Memory.read_write_ne m v hwf (by omega)

/-- A range of buffer bytes may be written with any bytes. -/
theorem writeRange {m : Memory} (hm : m.ok) {base : Nat} {bs : List Byte}
    (hr : ∀ a, base ≤ a → a < base + bs.length → regionOf a = some .buffer)
    (hf : base + bs.length ≤ frameBase) : LegalUpdate m (m.writeRange base bs) := by
  refine ⟨hm.writeRange (fun a h1 h2 => isStorage_of_buffer (hr a h1 h2)) hf,
    fun _ => Memory.isSome_read_writeRange base bs, fun a ha => ?_⟩
  rw [Memory.read_writeRange, if_neg]
  rintro ⟨h1, h2⟩
  have := regionOf_eq_buffer_iff.1 (hr a h1 h2)
  have hg : genBase = 0x3100 := rfl
  unfold within at ha
  omega

theorem writeCell {m : Memory} (hm : m.ok) {r c : Nat} (hr : r < 177) (hc : c < 177)
    (dark reserved : Bool) : LegalUpdate m (m.write (cellAddr r c) (cellByte dark reserved)) :=
  write hm (hostWritable_cellAddr hr hc) fun _ => cellByte_lt dark reserved

/-- Legal updates one after the other are one. -/
theorem foldl {β : Type} {f : Memory → β → Memory} {l : List β} {m : Memory} (hm : m.ok)
    (hf : ∀ m b, b ∈ l → m.ok → LegalUpdate m (f m b)) : LegalUpdate m (l.foldl f m) := by
  induction l generalizing m with
  | nil => exact refl hm
  | cons b l ih =>
    have hb := hf m b (by simp) hm
    exact hb.trans (ih hb.ok fun m b' hb' => hf m b' (by simp [hb']))

theorem placeBits {m : Memory} (hm : m.ok) {cells : List Cursor} (bits : List Bool)
    (hc : ∀ s ∈ cells, s.r < 177 ∧ s.c < 177) : LegalUpdate m (placeBits m cells bits) :=
  foldl hm fun _ p hp hm =>
    have h := hc p.1 (List.of_mem_zip hp).1
    writeCell hm h.1 h.2 _ _

theorem writeFormat {m : Memory} (hm : m.ok) {w : Nat} (lo : 21 ≤ w) (hi : w ≤ 177) (f : BitVec 15) :
    LegalUpdate m (writeFormat m w f) :=
  foldl hm fun m i hi' hm => by
    obtain ⟨h1, h2, h3, h4⟩ := formatCells_lt lo (List.mem_range.1 hi')
    have hfirst := writeCell hm (r := (formatCell1 i).1) (c := (formatCell1 i).2) (by omega) (by omega)
      (f.getLsbD i) true
    exact hfirst.trans (writeCell hfirst.ok (by omega) (by omega) (f.getLsbD i) true)

theorem flipSymbol {m : Memory} (hm : m.ok) (w : Nat) (flip : Nat → Nat → Bool) :
    LegalUpdate m (flipSymbol m w flip) := by
  obtain ⟨hwf, hst, hcell⟩ := hm
  refine ⟨⟨wf_flipSymbol w flip hwf, fun e he => ?_, fun e he hb => ?_⟩, fun a ha => ?_, fun a ha => ?_⟩
  · obtain ⟨e', he', h1, -⟩ := mem_flipSymbol he
    rw [h1]
    exact hst e' he'
  · obtain ⟨e', he', h1, h2⟩ := mem_flipSymbol he
    have h4 := hcell e' he' (h1 ▸ hb)
    rcases h2 with h2 | ⟨b, h2⟩ <;> rw [h2]
    · exact h4
    · exact flipData_lt b h4
  · rw [read_flipSymbol]
    split
    · simpa using ha
    · exact ha
  · have hg : genBase + 256 ≤ frameBase := by decide
    have hn : ¬ inSymbol w a = true := by
      unfold within at ha
      simp [inSymbol, show ¬ frameBase ≤ a by omega]
    rw [read_flipSymbol, if_neg hn]

theorem writeFrame {m : Memory} (hm : m.ok) {cell : Nat → Nat → Byte}
    (hcell : ∀ r c, (cell r c).toNat < 4) : LegalUpdate m (m.writeFrame cell) := by
  obtain ⟨hwf, hst, h4⟩ := hm
  refine ⟨⟨wf_writeFrame cell hwf, fun e he => ?_, fun e he hb => ?_⟩, fun a ha => ?_, fun a ha => ?_⟩
  · rcases mem_writeFrame he with he | ⟨r, hr, c, hc, rfl⟩
    · exact hst e he
    · exact (hostWritable_cellAddr hr hc).isStorage
  · rcases mem_writeFrame he with he | ⟨r, hr, c, hc, rfl⟩
    · exact h4 e he hb
    · exact hcell r c
  · by_cases hf : frameBase ≤ a
    · obtain ⟨e, he, rfl⟩ := Memory.read_isSome_iff.1 ha
      obtain ⟨r, hr, c, hc, h⟩ := exists_cellAddr (hst e he) hf
      rw [h, read_writeFrame_cell m cell hr hc]
      rfl
    · rw [read_writeFrame_outside m cell (.inl (by omega))]
      exact ha
  · have hg : genBase + 256 ≤ frameBase := by decide
    unfold within at ha
    exact read_writeFrame_outside m cell (.inl (by omega))

end LegalUpdate

end Sys2Proof.Machine
end

section
/-! PROOFS. Sizes and ranges that the invariant of every step needs: the bounds of the table, the lengths
of what the commands write, and that the filler stays on the traversal. -/

namespace Sys2Proof.Machine

open Sys2Proof

/-! ### The table -/

/-- The rows of R71 as the spec result registers hold them: the version is not truncated, the stream and the
ecc codewords fit their buffers. -/
theorem specRegs_bounds : ∀ v ≤ 40, 1 ≤ v → ∀ l < 4,
    (SpecRegs.of v l).version.toNat = v ∧ (SpecRegs.of v l).totalCw.toNat ≤ 3706 ∧
      (SpecRegs.of v l).blocks * (SpecRegs.of v l).eccPerBlock.toNat ≤ 2430 := by
  decide

theorem capacityRow_data_le : ∀ v ≤ 40, ∀ l < 4, (capacityRow v l).data ≤ 2956 := by
  decide

/-- A valid spec is of a version of the table, and its streams fit their buffers. -/
theorem specOk.bounds {s : State} (h : specOk s) (hv : s.specValid = true) :
    1 ≤ s.spec.version.toNat ∧ s.spec.version.toNat ≤ 40 ∧ s.spec.totalCw.toNat ≤ 3706 ∧
      s.spec.blocks * s.spec.eccPerBlock.toNat ≤ 2430 := by
  obtain ⟨v, l, h1, h40, h4, hs⟩ := h.2 hv
  obtain ⟨hver, htot, hecc⟩ := specRegs_bounds v h40 h1 l h4
  rw [hs, hver]
  exact ⟨h1, h40, htot, hecc⟩

/-! ### SEL_RUN's version -/

theorem fits_of_resolveVersion {s : State} {version l v : Nat}
    (h : resolveVersion s version l = some v) : fits s.params s.segments v l = true := by
  unfold resolveVersion at h
  split_ifs at h with h0 hf
  · exact List.find?_some (p := fun v => fits s.params s.segments v l) h
  · cases h
    exact hf

/-- A version resolved is one of the table (R90). -/
theorem range_of_resolveVersion {s : State} {version l v : Nat} (hv : version ≤ 40)
    (h : resolveVersion s version l = some v) : 1 ≤ v ∧ v ≤ 40 := by
  unfold resolveVersion at h
  split_ifs at h with h0 hf
  · have := List.mem_range'_1.1 (List.mem_of_find?_eq_some h)
    have hmax : Config.maxVersion = 40 := rfl
    omega
  · cases h
    omega

/-- The sum of R84 for a version that fits is bounded by the largest capacity (R31). -/
theorem totalBits_le_of_fits {p : Config.Params} {segs : List Segment} {v l : Nat} (hv : v ≤ 40)
    (hl : l < 4) (h : fits p segs v l = true) : totalBits p segs v ≤ 23648 := by
  have hb : totalBits p segs v ≤ 8 * (capacityRow v l).data := by
    unfold fits at h
    simp only [Bool.and_eq_true, decide_eq_true_eq] at h
    exact h.1
  have := capacityRow_data_le v hv l hl
  omega

/-! ### Lengths -/

theorem length_mulLinear (p : List Byte) (r : Byte) : (mulLinear p r).length = p.length + 1 := by
  simp [mulLinear]

theorem length_generator (n : Nat) : (generator n).length = n + 1 := by
  induction n with
  | zero => rfl
  | succ n ih => rw [generator, length_mulLinear, ih]

theorem length_feedback {taps reg : List Byte} (d : Byte) (h : reg.length = taps.length) :
    (feedback taps reg d).length = taps.length := by
  simp [feedback]
  omega

theorem length_foldl_feedback {taps : List Byte} (data : List Byte) {reg : List Byte}
    (h : reg.length = taps.length) : (data.foldl (feedback taps) reg).length = taps.length := by
  induction data generalizing reg with
  | nil => exact h
  | cons d data ih => exact ih (length_feedback d h)

/-- RSEncode answers as many ecc codewords as asked for (R99). -/
theorem length_rsEncode (data : List Byte) (n : Nat) : (rsEncode data n).length = n := by
  have htaps : ((generator n).take n).reverse.length = n := by simp [length_generator]
  exact (length_foldl_feedback data (by simp [length_generator])).trans htaps

theorem length_of_blockEcc {x : SpecRegs} {m : Memory} {b : Nat} {ys : List Byte}
    (h : blockEcc x m b = some ys) : ys.length = x.eccPerBlock.toNat := by
  obtain ⟨d, -, rfl⟩ := Option.map_eq_some_iff.1 h
  exact length_rsEncode d _

/-- ASSEMBLE's ecc codewords: e for each of the B blocks (R104). -/
theorem length_of_allEcc {x : SpecRegs} {m : Memory} {ecc : List Byte} (h : allEcc x m = some ecc) :
    ecc.length = x.blocks * x.eccPerBlock.toNat := by
  obtain ⟨yss, hy, rfl⟩ := Option.map_eq_some_iff.1 h
  rw [allSome_eq_some_iff] at hy
  have hlen : yss.length = x.blocks := by simpa using (congrArg List.length hy).symm
  have hall : ∀ n ∈ yss.map List.length, n = x.eccPerBlock.toNat := by
    intro n hn
    obtain ⟨ys, hys, rfl⟩ := List.mem_map.1 hn
    have hmem : some ys ∈ (List.range x.blocks).map (blockEcc x m) :=
      hy ▸ List.mem_map_of_mem hys
    obtain ⟨b, -, hb⟩ := List.mem_map.1 hmem
    exact length_of_blockEcc hb
  rw [List.length_flatten, List.sum_eq_card_nsmul _ _ hall, List.length_map, hlen, smul_eq_mul]

theorem length_of_streamOf {x : SpecRegs} {m : Memory} {stream : List Byte}
    (h : streamOf x m = some stream) : stream.length = x.totalCw.toNat := by
  rw [streamOf, allSome_eq_some_iff] at h
  simpa using (congrArg List.length h).symm

/-! ### The traversal -/

theorem onTraversal_cursorStart {w : Nat} (hodd : w % 2 = 1) (hw : 9 ≤ w) :
    onTraversal w (cursorStart w) := by
  refine ⟨?_, ?_, .inl ?_⟩ <;> dsimp only [cursorStart] <;> omega

/-- Step of R115 stays on the traversal. -/
theorem onTraversal_cursorStep {w : Nat} (hodd : w % 2 = 1) (hw : 9 ≤ w) {s t : Cursor}
    (hs : onTraversal w s) (h : cursorStep w s = some t) : onTraversal w t := by
  obtain ⟨r, c, up, right⟩ := s
  obtain ⟨hr, hc, hcol⟩ := hs
  dsimp only at hr hc hcol
  unfold onTraversal
  cases right with
  | true =>
    obtain rfl : (⟨r, c - 1, up, false⟩ : Cursor) = t := by simpa [cursorStep] using h
    simp only [if_true, Bool.false_eq_true, if_false] at hcol ⊢
    omega
  | false =>
    simp only [Bool.false_eq_true, if_false] at hcol
    simp only [cursorStep, Bool.false_eq_true, if_false] at h
    split_ifs at h with hup hdown hend hsix <;> cases h
    all_goals
      simp only [if_true, and_true]
      omega

theorem mem_cursorPath {w : Nat} (hodd : w % 2 = 1) (hw : 9 ≤ w) {bound : Nat} {o : Option Cursor}
    (ho : ∀ s, o = some s → onTraversal w s) : ∀ s ∈ cursorPath w bound o, onTraversal w s := by
  induction bound generalizing o with
  | zero => simp [cursorPath]
  | succ n ih =>
    cases o with
    | none => simp [cursorPath]
    | some x =>
      intro s hs
      rcases List.mem_cons.1 hs with rfl | hs
      · exact ho s rfl
      · exact ih (fun t ht => onTraversal_cursorStep hodd hw (ho x rfl) ht) s hs

/-- NextFree takes its cells from the path (R116). -/
theorem mem_of_firstFree {m : Memory} {n : Nat} {path cells : List Cursor}
    (h : firstFree m n path = .found cells) : ∀ s ∈ cells, s ∈ path := by
  induction path generalizing n cells with
  | nil =>
    cases n <;> cases h
    simp
  | cons x path ih =>
    cases n with
    | zero =>
      cases h
      simp
    | succ n =>
      unfold firstFree at h
      split at h
      · cases h
      · split_ifs at h
        · exact fun s hs => List.mem_cons_of_mem x (ih h s hs)
        · split at h <;> cases h
          next rest hrest =>
          intro s hs
          rcases List.mem_cons.1 hs with rfl | hs
          · exact List.mem_cons_self
          · exact List.mem_cons_of_mem x (ih hrest s hs)

theorem cursor_fillPos {s : Cursor} (hr : s.r < 256) (hc : s.c < 256) : s.fillPos.cursor = s := by
  obtain ⟨r, c, up, right⟩ := s
  simp [Cursor.fillPos, FillPos.cursor, Nat.mod_eq_of_lt hr, Nat.mod_eq_of_lt hc]

end Sys2Proof.Machine
end

section
/-! PROOFS. Every step keeps a legal state legal: each part of legal through each command, then the other
steps, which write no register that legal speaks of. -/

namespace Sys2Proof.Machine

open Sys2Proof

/-! ### What each part of legal reads -/

section
variable {s t : State}

theorem specOk.congr (h : specOk s) (hv : t.specValid = s.specValid) (hx : t.spec = s.spec) :
    specOk t := by
  unfold specOk
  rwa [hv, hx]

theorem segsOk.congr (h : segsOk s) (hs : t.segments = s.segments) : segsOk t := by
  unfold segsOk
  rwa [hs]

theorem errcodeOk.congr (h : errcodeOk s) (he : t.errcode = s.errcode) : errcodeOk t := by
  unfold errcodeOk
  rwa [he]

theorem generatorOk.congr (h : generatorOk s) (hd : t.genDegree = s.genDegree)
    (hm : ∀ a, within genBase 256 a → t.mem.read a = s.mem.read a) : generatorOk t := by
  obtain ⟨h255, hgen⟩ := h
  unfold generatorOk
  rw [hd]
  refine ⟨h255, fun h0 => ?_⟩
  rw [← hgen h0]
  exact readRange_congr fun i hi => hm (genBase + i) ⟨by omega, by omega⟩

theorem frameWritten.mono {m m' : Memory} (h : frameWritten m)
    (hm : ∀ a, (m.read a).isSome → (m'.read a).isSome) : frameWritten m' :=
  fun r hr c hc => hm _ (h r hr c hc)

theorem fillPosOk.congr (h : fillPosOk s) (hv : t.frameVersion = s.frameVersion)
    (hp : t.fillPos = s.fillPos) : fillPosOk t := by
  unfold fillPosOk frameWidth
  rwa [hv, hp]

theorem fillPosOk_of_zero (hp : t.fillPos = .zero) : fillPosOk t := by
  unfold fillPosOk
  rw [hp]
  exact ⟨fun _ => rfl, fun h => by cases h⟩

theorem rangesOk.congr (h : rangesOk s) (hr : t.reqBits = s.reqBits) (hc : t.cwIndex = s.cwIndex) :
    rangesOk t := by
  unfold rangesOk
  rwa [hr, hc]

end

/-! ### The spec result registers -/

theorem Succeeds.keeps_specOk {s u : State} {i : Instr} (h : Succeeds s i u) (hs : specOk s) : specOk u := by
  cases h with
  | softReset => exact ⟨fun _ => rfl, fun h => by cases h⟩
  | @selRun version level v hv _ hr =>
    obtain ⟨h1, h40⟩ := range_of_resolveVersion hv hr
    exact ⟨fun h => (by cases h), fun _ => ⟨v, level.toNat, h1, h40, level.isLt, rfl⟩⟩
  | @specQuery version level h1 h40 =>
    exact ⟨fun h => (by cases h), fun _ => ⟨_, level.toNat, h1, h40, level.isLt, rfl⟩⟩
  | _ => exact hs.congr rfl rfl

theorem HostCase.keeps_specOk {s t : State} {a : HostAction} (h : HostCase s a t) (hs : specOk s) :
    specOk t := by
  cases h <;> exact hs.congr rfl rfl

/-- Settles O58: SPEC_VALID and the spec registers are written by SOFT_RESET, SEL_RUN and SPEC_QUERY alone,
which clear both or load a row of the table. -/
theorem stepKeepsSpecRegisters : Obligations.StepKeepsSpecRegisters := by
  unfold Obligations.StepKeepsSpecRegisters
  intro s t hs h
  cases step_cases h with
  | command _ _ he =>
    cases he with
    | fails => exact hs.congr rfl rfl
    | succeeds hu => exact (hu.keeps_specOk hs).congr rfl rfl
  | illegal | polled => exact hs.congr rfl rfl
  | host _ _ hc => exact hc.keeps_specOk (hs.congr rfl rfl)

/-! ### SEG_TABLE and ERRCODE -/

theorem Succeeds.keeps_segsOk {s u : State} {i : Instr} (h : Succeeds s i u) (hs : segsOk s) : segsOk u := by
  cases h with
  | softReset | selClear => exact ⟨Nat.zero_le _, fun g hg => absurd hg List.not_mem_nil⟩
  | @selAdd mode count m _ h0 hlen =>
    obtain ⟨-, hne⟩ := hs
    refine ⟨?_, fun g hg => ?_⟩
    · have h256 : Config.maxSegments = 256 := rfl
      simp only [List.length_append, List.length_singleton]
      omega
    · rcases List.mem_append.1 hg with hg | hg
      · exact hne g hg
      · rw [List.mem_singleton.1 hg]
        exact h0
  | _ => exact hs.congr rfl

theorem errcodeOk_complete (s : State) : errcodeOk s.complete := by
  simp [errcodeOk]

/-- Every code is one that some command produces, but EngineConstructionFailure (R125). -/
theorem errcodeOk_fail (s : State) {c : ErrCode} (hc : c ≠ .engineConstructionFailure) :
    errcodeOk (s.fail c) := by
  unfold errcodeOk
  cases c with
  | engineConstructionFailure => exact absurd rfl hc
  | _ => simp [ErrCode.code]

theorem Succeeds.keeps_errcodeOk {s u : State} {i : Instr} (h : Succeeds s i u) (hs : errcodeOk s) :
    errcodeOk u := by
  cases h with
  | softReset => simp [errcodeOk]
  | _ => exact hs.congr rfl

/-! ### The filler's position -/

/-- The width of a frame that FRAME_INIT has built (R39, R70). -/
theorem frameOk.width {s : State} (h : frameOk s) (hn : s.frameStage ≠ .none) :
    21 ≤ frameWidth s ∧ frameWidth s ≤ 177 ∧ frameWidth s % 2 = 1 := by
  obtain ⟨-, h1, h40, -⟩ := h.2.1 hn
  unfold frameWidth symbolWidth
  omega

theorem onTraversal_of_zigzag {w : Nat} (hodd : w % 2 = 1) (hw : 9 ≤ w) {s : Cursor}
    (h : s ∈ zigzag w) : onTraversal w s :=
  mem_cursorPath hodd hw (fun _ ht => Option.some.inj ht ▸ onTraversal_cursorStart hodd hw) s h

/-- What the filler has before it lies on the traversal (R116). -/
theorem onTraversal_of_fillerPath {s : State} (hp : fillPosOk s) (hodd : frameWidth s % 2 = 1)
    (hw : 9 ≤ frameWidth s) {c : Cursor} (h : c ∈ fillerPath s) : onTraversal (frameWidth s) c := by
  refine mem_cursorPath hodd hw (fun t ht => ?_) c h
  unfold FillPos.next at ht
  split_ifs at ht with hst
  · exact onTraversal_cursorStep hodd hw (hp.2 hst) ht
  · exact Option.some.inj ht ▸ onTraversal_cursorStart hodd hw

/-- FILL_POS after a report: a position of the traversal, or as before with none reported. -/
theorem fillPosOk_of_mem {s t : State} {cells : List Cursor} (hs : fillPosOk s)
    (hv : t.frameVersion = s.frameVersion) (hw : frameWidth s ≤ 177)
    (hc : ∀ c ∈ cells, onTraversal (frameWidth s) c)
    (hp : t.fillPos ∈ s.fillPos :: cells.map Cursor.fillPos) : fillPosOk t := by
  rcases List.mem_cons.1 hp with hp | hp
  · exact hs.congr hv hp
  · obtain ⟨c, hmem, hp⟩ := List.mem_map.1 hp
    have hon := hc c hmem
    have ⟨hr, hcol, _⟩ := hon
    unfold fillPosOk frameWidth
    rw [hv, ← hp, cursor_fillPos (by omega) (by omega)]
    exact ⟨fun h => (by cases h), fun _ => hon⟩

theorem headD_mem_cons {α : Type} (l : List α) (d : α) : l.headD d ∈ d :: l := by
  cases l <;> simp

theorem Succeeds.keeps_fillPosOk {s u : State} {i : Instr} (h : Succeeds s i u) (hs : fillPosOk s)
    (hf : frameOk s) : fillPosOk u := by
  cases h with
  | softReset | frameInit | fillReset => exact fillPosOk_of_zero rfl
  | fillNext hn hfree =>
    obtain ⟨lo, hi, hodd⟩ := hf.width hn
    exact fillPosOk_of_mem hs rfl hi
      (fun c hc => onTraversal_of_fillerPath hs hodd (by omega) (mem_of_firstFree hfree c hc))
      (headD_mem_cons _ _)
  | frameFill hn _ _ _ hfree =>
    obtain ⟨lo, hi, hodd⟩ := hf.width hn
    exact fillPosOk_of_mem hs rfl hi
      (fun c hc => onTraversal_of_zigzag hodd (by omega) (mem_of_firstFree hfree c hc))
      List.getLastD_mem_cons
  | _ => exact hs.congr rfl rfl

/-! ### REQ_BITS and CW_INDEX -/

theorem Succeeds.keeps_rangesOk {s u : State} {i : Instr} (h : Succeeds s i u) (hs : rangesOk s)
    (hx : specOk s) : rangesOk u := by
  cases h with
  | softReset => exact ⟨Nat.zero_le _, Nat.zero_le _⟩
  | @selRun version level v hv _ hr =>
    obtain ⟨-, h40⟩ := range_of_resolveVersion hv hr
    have := totalBits_le_of_fits h40 level.isLt (fits_of_resolveVersion hr)
    refine ⟨?_, hs.2⟩
    rw [BitVec.toNat_ofNat]
    omega
  | specQuery => exact ⟨Nat.zero_le _, hs.2⟩
  | cwReset => exact ⟨hs.1, Nat.zero_le _⟩
  | cwNext hv hlt _ =>
    obtain ⟨-, -, htot, -⟩ := hx.bounds hv
    refine ⟨hs.1, ?_⟩
    rw [BitVec.toNat_ofNat]
    omega
  | _ => exact hs.congr rfl rfl

/-! ### The storage and GEN_BUF -/

theorem frameStage_ne_none_of_isFilled {st : FrameStage} (h : st.isFilled = true) : st ≠ .none := by
  rintro rfl
  cases h

/-- What a command does to the storage: a legal update, with GEN_DEGREE as before or cleared, or the write
of GEN_POLY (R102). -/
theorem Succeeds.storage {s u : State} {i : Instr} (h : Succeeds s i u) (hm : storageOk s)
    (hx : specOk s) (hf : frameOk s) :
    (LegalUpdate s.mem u.mem ∧ (u.genDegree = s.genDegree ∨ u.genDegree = 0)) ∨
      ∃ n : Byte, u.mem = s.mem.writeRange genBase (generator n.toNat) ∧
        u.genDegree = BitVec.ofNat 9 n.toNat := by
  have hb : blkBase = 0x3000 := rfl
  have he : eccBase = 0x4000 := rfl
  have hst : streamBase = 0x2000 := rfl
  have hfr : frameBase = 0x10000 := rfl
  cases h with
  | genPoly => exact .inr ⟨_, rfl, rfl⟩
  | softReset => exact .inl ⟨.refl hm, .inr rfl⟩
  | @rsEncode k n d hn hk _ =>
    have hlen := length_rsEncode d n.toNat
    have h255 : Config.codeLength = 255 := rfl
    exact .inl ⟨.writeRange hm (fun a _ _ => regionOf_eq_buffer_iff.2 (by omega)) (by omega), .inl rfl⟩
  | @assemble ecc stream hv hecc hstream =>
    obtain ⟨-, -, htot, hmul⟩ := hx.bounds hv
    have hl := length_of_allEcc hecc
    have hl' := length_of_streamOf hstream
    have hfirst := LegalUpdate.writeRange hm (base := eccBase) (bs := ecc)
      (fun a _ _ => regionOf_eq_buffer_iff.2 (by omega)) (by omega)
    have hsecond := LegalUpdate.writeRange hfirst.ok (base := streamBase) (bs := stream)
      (fun a _ _ => regionOf_eq_buffer_iff.2 (by omega)) (by omega)
    exact .inl ⟨hfirst.trans hsecond, .inl rfl⟩
  | frameInit => exact .inl ⟨.writeFrame hm fun r c => skeletonByte_lt _ _ _ r c, .inl rfl⟩
  | frameFill hn _ _ _ hfree =>
    obtain ⟨lo, hi, hodd⟩ := hf.width hn
    refine .inl ⟨.placeBits hm _ fun c hc => ?_, .inl rfl⟩
    obtain ⟨hr, hcol, -⟩ := onTraversal_of_zigzag hodd (by omega) (mem_of_firstFree hfree c hc)
    omega
  | @mask m hst' _ =>
    obtain ⟨lo, hi, -⟩ := hf.width (frameStage_ne_none_of_isFilled hst')
    have hfirst := LegalUpdate.flipSymbol hm (frameWidth s)
      (maskFlip s.frameStage s.maskCur.toNat m.toNat)
    have hsecond := LegalUpdate.writeFormat hfirst.ok lo hi (formatWord s.spec.level.toNat m.toNat)
    refine .inl ⟨?_, .inl rfl⟩
    dsimp only
    exact hfirst.trans hsecond
  | _ => exact .inl ⟨.refl hm, .inl rfl⟩

/-- GEN_BUF takes every generator whole, for N up to 255 (R102). -/
theorem ok_writeGenerator {m : Memory} (hm : m.ok) {n : Nat} (hn : n ≤ 255) :
    (m.writeRange genBase (generator n)).ok := by
  have hg : genBase = 0x3100 := rfl
  have hf : frameBase = 0x10000 := rfl
  have hl := length_generator n
  exact hm.writeRange (fun a _ _ => isStorage_of_genBuf (regionOf_eq_genBuf_iff.2 (by omega)))
    (by omega)

theorem readRange_writeGenerator (m : Memory) (n : Nat) :
    (m.writeRange genBase (generator n)).readRange genBase (n + 1) = some (generator n) :=
  readRange_eq_some_iff.2
    ⟨length_generator n, fun _ hi => Memory.read_writeRange_inside m genBase (generator n) hi⟩

theorem Succeeds.keeps_storageOk {s u : State} {i : Instr} (h : Succeeds s i u) (hm : storageOk s)
    (hx : specOk s) (hf : frameOk s) : storageOk u := by
  rcases h.storage hm hx hf with ⟨hu, -⟩ | ⟨n, hu, -⟩
  · exact hu.ok
  · rw [storageOk_iff, hu]
    exact ok_writeGenerator hm (by omega)

theorem Succeeds.written {s u : State} {i : Instr} (h : Succeeds s i u) (hm : storageOk s)
    (hx : specOk s) (hf : frameOk s) (a : Nat) (ha : (s.mem.read a).isSome) :
    (u.mem.read a).isSome := by
  rcases h.storage hm hx hf with ⟨hu, -⟩ | ⟨n, hu, -⟩
  · exact hu.written a ha
  · rw [hu]
    exact Memory.isSome_read_writeRange _ _ ha

theorem Succeeds.keeps_generatorOk {s u : State} {i : Instr} (h : Succeeds s i u) (hg : generatorOk s)
    (hm : storageOk s) (hx : specOk s) (hf : frameOk s) : generatorOk u := by
  rcases h.storage hm hx hf with ⟨hu, hd | hd⟩ | ⟨n, hu, hd⟩
  · exact hg.congr hd hu.genBuf
  · unfold generatorOk
    rw [hd]
    exact ⟨Nat.zero_le _, fun h0 => absurd rfl h0⟩
  · have hn : (BitVec.ofNat 9 n.toNat).toNat = n.toNat := by
      rw [BitVec.toNat_ofNat]
      omega
    unfold generatorOk
    rw [hd, hu, hn]
    exact ⟨by omega, fun _ => readRange_writeGenerator s.mem n.toNat⟩

/-! ### The frame registers -/

/-- Frame registers and SPEC_VALID as before, and no written mark dropped. -/
theorem frameOk.congr {s t : State} (h : frameOk s) (hstage : t.frameStage = s.frameStage)
    (hspec : t.specValid = s.specValid ∨ t.specValid = true) (hver : t.frameVersion = s.frameVersion)
    (hbits : t.versionBits = s.versionBits)
    (hpos : s.frameStage = .none → t.fillPos = s.fillPos ∨ t.fillPos = .zero)
    (hmask : t.maskCur = s.maskCur) (hform : t.formatBits = s.formatBits)
    (hmem : ∀ a, (s.mem.read a).isSome → (t.mem.read a).isSome) : frameOk t := by
  obtain ⟨hnone, hpast, hunmasked⟩ := h
  unfold frameOk
  rw [hstage, hver, hbits, hmask, hform]
  refine ⟨fun hn => ?_, fun hn => ?_, hunmasked⟩
  · obtain ⟨h1, h2, h3⟩ := hnone hn
    exact ⟨h1, h2, (hpos hn).elim (fun hp => hp.trans h3) id⟩
  · obtain ⟨h1, h2, h3, h4, h5⟩ := hpast hn
    exact ⟨hspec.elim (fun hs => hs.trans h1) id, h2, h3, h4, h5.mono hmem⟩

/-- Past NONE, a stage past NONE takes over what frameOk says of it. -/
theorem frameOk.next {s t : State} (h : frameOk s) (hn : s.frameStage ≠ .none)
    (hn' : t.frameStage ≠ .none) (hspec : t.specValid = s.specValid)
    (hver : t.frameVersion = s.frameVersion) (hbits : t.versionBits = s.versionBits)
    (hmem : ∀ a, (s.mem.read a).isSome → (t.mem.read a).isSome)
    (hmask : t.frameStage ≠ .masked → t.maskCur = 0#3 ∧ t.formatBits = 0#15) : frameOk t := by
  obtain ⟨-, hpast, -⟩ := h
  obtain ⟨h1, h2, h3, h4, h5⟩ := hpast hn
  refine ⟨fun h0 => absurd h0 hn', fun _ => ?_, hmask⟩
  rw [hspec, hver, hbits]
  exact ⟨h1, h2, h3, h4, h5.mono hmem⟩

theorem Succeeds.keeps_frameOk {s u : State} {i : Instr} (h : Succeeds s i u) (hf : frameOk s)
    (hm : storageOk s) (hx : specOk s) : frameOk u := by
  have hmem := h.written hm hx hf
  cases h with
  | softReset =>
    exact ⟨fun _ => ⟨rfl, rfl, rfl⟩, fun h0 => absurd rfl h0, fun _ => ⟨rfl, rfl⟩⟩
  | selRun | specQuery =>
    exact hf.congr rfl (.inr rfl) rfl rfl (fun _ => .inl rfl) rfl rfl hmem
  | frameInit hv =>
    obtain ⟨h1, h40, -⟩ := hx.bounds hv
    exact ⟨fun h0 => (by cases h0), fun _ => ⟨hv, h1, h40, rfl, fun r hr c hc => by
      rw [read_writeFrame_cell _ _ hr hc]
      rfl⟩, fun _ => ⟨rfl, rfl⟩⟩
  | fillReset => exact hf.congr rfl (.inl rfl) rfl rfl (fun _ => .inr rfl) rfl rfl hmem
  | fillNext hn _ => exact hf.congr rfl (.inl rfl) rfl rfl (fun h0 => absurd h0 hn) rfl rfl hmem
  | frameFill hn =>
    exact hf.next hn (fun h0 => (by cases h0)) rfl rfl rfl hmem fun _ => ⟨rfl, rfl⟩
  | mask hst =>
    exact hf.next (frameStage_ne_none_of_isFilled hst) (fun h0 => (by cases h0)) rfl rfl rfl hmem
      fun h0 => absurd rfl h0
  | _ => exact hf.congr rfl (.inl rfl) rfl rfl (fun _ => .inl rfl) rfl rfl hmem

/-! ### Legal states -/

theorem Succeeds.keeps_legal {s u : State} {i : Instr} (h : Succeeds s i u) (hl : legal s) :
    legal u := by
  obtain ⟨hm, hx, hseg, herr, hgen, hf, hpos, hrng⟩ := hl
  exact ⟨h.keeps_storageOk hm hx hf, h.keeps_specOk hx, h.keeps_segsOk hseg, h.keeps_errcodeOk herr,
    h.keeps_generatorOk hgen hm hx hf, h.keeps_frameOk hf hm hx, h.keeps_fillPosOk hpos hf,
    h.keeps_rangesOk hrng hx⟩

/-- The registers that legal speaks of are as before, ERRCODE apart. -/
structure LegalRegsKept (s t : State) : Prop where
  specValid : t.specValid = s.specValid
  frameStage : t.frameStage = s.frameStage
  segments : t.segments = s.segments
  spec : t.spec = s.spec
  reqBits : t.reqBits = s.reqBits
  frameVersion : t.frameVersion = s.frameVersion
  maskCur : t.maskCur = s.maskCur
  formatBits : t.formatBits = s.formatBits
  versionBits : t.versionBits = s.versionBits
  fillPos : t.fillPos = s.fillPos
  cwIndex : t.cwIndex = s.cwIndex
  genDegree : t.genDegree = s.genDegree

/-- A legal state stays legal through a legal update of the storage and a code that is produced. -/
theorem legal.of_regsKept {s t : State} (hl : legal s) (hr : LegalRegsKept s t) (he : errcodeOk t)
    (hu : LegalUpdate s.mem t.mem) : legal t := by
  obtain ⟨-, hx, hseg, -, hgen, hf, hpos, hrng⟩ := hl
  exact ⟨hu.ok, hx.congr hr.specValid hr.spec, hseg.congr hr.segments, he,
    hgen.congr hr.genDegree hu.genBuf,
    hf.congr hr.frameStage (.inl hr.specValid) hr.frameVersion hr.versionBits
      (fun _ => .inl hr.fillPos) hr.maskCur hr.formatBits hu.written,
    hpos.congr hr.frameVersion hr.fillPos, hrng.congr hr.reqBits hr.cwIndex⟩

theorem legal.storage {s : State} (hl : legal s) : s.mem.ok := hl.1

theorem legal.errcode {s : State} (hl : legal s) : errcodeOk s := by
  obtain ⟨-, -, -, herr, -⟩ := hl
  exact herr

theorem legal.complete {s : State} (hl : legal s) : legal s.complete :=
  hl.of_regsKept (by constructor <;> rfl) (errcodeOk_complete s) (.refl hl.storage)

theorem legal.fail {s : State} (hl : legal s) {c : ErrCode} (hc : c ≠ .engineConstructionFailure) :
    legal (s.fail c) :=
  hl.of_regsKept (by constructor <;> rfl) (errcodeOk_fail s hc) (.refl hl.storage)

/-- A legal state stays legal when only the Host's side of the port changes. -/
theorem legal.hostSide {s : State} (hl : legal s) (p : List HostAction) (q : List Word) (left d : Nat) :
    legal { s with port := p, replies := q, busyLeft := left, draws := d } :=
  hl.of_regsKept (by constructor <;> rfl) hl.errcode (.refl hl.storage)

theorem keptByte_lt {a : Nat} (ha : frameBase ≤ a) (v : Byte) : (keptByte a v).toNat < 4 := by
  rw [keptByte, if_pos ha]
  exact and_cellBits_lt v

theorem HostCase.keeps_legal {s t : State} {a : HostAction} (h : HostCase s a t) (hl : legal s) :
    legal t := by
  cases h with
  | served => exact hl.hostSide _ _ _ _
  | @stored addr v ha =>
    exact hl.of_regsKept (by constructor <;> rfl) hl.errcode
      (.write hl.storage ha fun hb => keptByte_lt hb v)
  | issued | cleared => exact hl.of_regsKept (by constructor <;> rfl) hl.errcode (.refl hl.storage)

/-- Settles O59: a command that succeeds keeps each part of legal, one that fails writes ERRCODE alone of
what legal speaks of, and a Host access at most a byte it may write. -/
theorem stepKeepsLegal : Obligations.StepKeepsLegal := by
  unfold Obligations.StepKeepsLegal
  intro s t hl h
  cases step_cases h with
  | @command i _ _ _ he =>
    cases he with
    | fails hc => exact hl.fail fun h4 => (not_mem_mayRaise i).2 (h4 ▸ hc)
    | succeeds hu => exact (hu.keeps_legal hl).complete
  | illegal => exact hl.fail (by decide)
  | polled => exact hl.hostSide _ _ _ _
  | host _ _ hc => exact hc.keeps_legal (hl.hostSide _ _ _ _)

end Sys2Proof.Machine
end

section
/-! PROOFS. The Host's writes that have no effect, and that an access of the idle block is a bus error
exactly off the address map. -/

namespace Sys2Proof.Machine

open Sys2Proof

/-! ### Writes without an effect -/

theorem regionOf_eq_gfExp_iff {a i : Nat} : regionOf a = some (.gfExp i) ↔
    0x3200 ≤ a ∧ a ≤ 0x32FF ∧ a - 0x3200 = i := by
  simp [regionOf, ite_eq_iff]
  omega

theorem regionOf_eq_gfLog_iff {a i : Nat} : regionOf a = some (.gfLog i) ↔
    0x3300 ≤ a ∧ a ≤ 0x33FF ∧ a - 0x3300 = i := by
  simp [regionOf, ite_eq_iff]
  omega

/-- No register above STATUS can be written (R22). -/
theorem writeReg_readOnly {off : Nat} (h : 0x008 ≤ off) (v : Word) (s : State) :
    writeReg (Reg.ofOffset off) v s = s := by
  unfold writeReg
  split
  · next hr =>
    have : 0x000 = off := offset_of_ofOffset hr
    omega
  · next hr =>
    have : 0x004 = off := offset_of_ofOffset hr
    omega
  · rfl

theorem hostStoreWord_readOnly {off : Nat} (lo : 0x008 ≤ off) (hi : off ≤ 0xFF) (h4 : off % 4 = 0)
    (v : Word) (s : State) : hostStoreWord (BitVec.ofNat 32 off) v s = .next s := by
  rw [hostStoreWord, toNat_ofNat_of_le (by omega), if_neg (by omega), regionOf_eq_reg_iff.2 ⟨hi, rfl⟩]
  exact congrArg Host.Outcome.next (writeReg_readOnly lo v s)

theorem hostStoreWord_segTable {i : Nat} (h : i < 256) (v : Word) (s : State) :
    hostStoreWord (BitVec.ofNat 32 (segBase + 4 * i)) v s = .next s := by
  have hs : segBase = 0x3400 := rfl
  rw [hostStoreWord, toNat_ofNat_of_le (by omega), if_neg (by omega), regionOf_segEntry h]

theorem hostStoreByte_table {a : Nat} (lo : 0x3100 ≤ a) (hi : a ≤ 0x33FF) (v : Byte) (s : State) :
    hostStoreByte (BitVec.ofNat 32 a) v s = .next s := by
  rw [hostStoreByte, toNat_ofNat_of_le (by omega)]
  obtain h | h | h : a ≤ 0x31FF ∨ (0x3200 ≤ a ∧ a ≤ 0x32FF) ∨ 0x3300 ≤ a := by omega
  · rw [regionOf_eq_genBuf_iff.2 ⟨lo, h⟩]
  · rw [regionOf_eq_gfExp_iff.2 ⟨h.1, h.2, rfl⟩]
  · rw [regionOf_eq_gfLog_iff.2 ⟨h, hi, rfl⟩]

/-- Settles O52: each of these writes answers the state behind the access as it stands. -/
theorem readOnlyWritesHaveNoEffect : Obligations.ReadOnlyWritesHaveNoEffect := by
  unfold Obligations.ReadOnlyWritesHaveNoEffect
  intro s rest hb
  refine ⟨fun off v lo hi h4 hp => ?_, fun i v hi hp => ?_, fun a v lo hi hp => ?_⟩
  · rw [step_of_access hb hp, hostAccess, hostStoreWord_readOnly lo (by omega) h4]
  · rw [step_of_access hb hp, hostAccess, hostStoreWord_segTable hi]
  · rw [step_of_access hb hp, hostAccess, hostStoreByte_table lo hi]

/-! ### Bus errors -/

/-- The regions accessed by aligned words: the registers and SEG_TABLE (R43). -/
def isWordRegion : Option Region → Bool
  | some (.reg _) | some (.segTable _) => true
  | some .buffer | some .genBuf | some (.gfExp _) | some (.gfLog _) | some (.frame _ _) | none => false

/-- The regions accessed by bytes: the buffers, the tables of the field and the frame (R43). -/
def isByteRegion : Option Region → Bool
  | some .buffer | some .genBuf | some (.gfExp _) | some (.gfLog _) | some (.frame _ _) => true
  | some (.reg _) | some (.segTable _) | none => false

theorem isWordRegion_iff {o : Option Region} : isWordRegion o = true ↔
    (∃ off, o = some (.reg off)) ∨ ∃ i, o = some (.segTable i) := by
  cases o with
  | none => simp [isWordRegion]
  | some r => cases r <;> simp [isWordRegion]

theorem isByteRegion_iff {o : Option Region} : isByteRegion o = true ↔
    o = some .buffer ∨ o = some .genBuf ∨ (∃ i, o = some (.gfExp i)) ∨ (∃ i, o = some (.gfLog i)) ∨
      ∃ r c, o = some (.frame r c) := by
  cases o with
  | none => simp [isByteRegion]
  | some r => cases r <;> simp [isByteRegion]

theorem isWordRegion_regionOf {a : Nat} : isWordRegion (regionOf a) = true ↔
    a ≤ 0xFF ∨ (0x3400 ≤ a ∧ a ≤ 0x37FF) := by
  simp only [isWordRegion_iff, regionOf_eq_reg_iff, regionOf_eq_segTable_iff, exists_and_left,
    exists_eq', and_true]

theorem isByteRegion_regionOf {a : Nat} : isByteRegion (regionOf a) = true ↔
    (0x1000 ≤ a ∧ a ≤ 0x1FFF) ∨ (0x2000 ≤ a ∧ a ≤ 0x2FFF) ∨ (0x3000 ≤ a ∧ a ≤ 0x33FF) ∨
      (0x4000 ≤ a ∧ a ≤ 0x4FFF) ∨ (0x10000 ≤ a ∧ a ≤ 0x1B0FF ∧ (a - 0x10000) % 256 ≤ 176) := by
  simp only [isByteRegion_iff, regionOf_eq_buffer_iff, regionOf_eq_genBuf_iff, regionOf_eq_gfExp_iff,
    regionOf_eq_gfLog_iff, regionOf_eq_frame_iff, exists_and_left, exists_eq', and_true]
  omega

/-- The result is a next state where the access is allowed, and a bus error where it is not (R44, R45). -/
def servedExactlyIf (allowed : Prop) (r : Result) : Prop :=
  (¬ allowed → r = .fault .busError) ∧ (allowed → ∃ t, r = .next t)

theorem servedExactlyIf.next {allowed : Prop} (h : allowed) (t : State) :
    servedExactlyIf allowed (.next t) := ⟨fun hn => absurd h hn, fun _ => ⟨t, rfl⟩⟩

theorem servedExactlyIf.busError {allowed : Prop} (h : ¬ allowed) :
    servedExactlyIf allowed (.fault .busError) := ⟨fun _ => rfl, fun ha => absurd ha h⟩

theorem servedExactlyIf.congr {p q : Prop} {r : Result} (h : servedExactlyIf p r) (hpq : p ↔ q) :
    servedExactlyIf q r := by
  rwa [← hpq]

theorem wordAccess_served (addr v : Word) (s : State) :
    servedExactlyIf (addr.toNat % 4 = 0 ∧ isWordRegion (regionOf addr.toNat) = true)
        (hostLoadWord addr s) ∧
      servedExactlyIf (addr.toNat % 4 = 0 ∧ isWordRegion (regionOf addr.toNat) = true)
        (hostStoreWord addr v s) := by
  unfold hostLoadWord hostStoreWord
  split_ifs with h4
  · exact ⟨.busError fun h => h4 h.1, .busError fun h => h4 h.1⟩
  · match regionOf addr.toNat with
    | some (.reg _) | some (.segTable _) =>
      exact ⟨.next ⟨not_not.1 h4, rfl⟩ _, .next ⟨not_not.1 h4, rfl⟩ _⟩
    | some .buffer | some .genBuf | some (.gfExp _) | some (.gfLog _) | some (.frame _ _) | none =>
      exact ⟨.busError fun h => Bool.false_ne_true h.2, .busError fun h => Bool.false_ne_true h.2⟩

theorem byteAccess_served (addr : Word) (v : Byte) (s : State) :
    servedExactlyIf (isByteRegion (regionOf addr.toNat) = true) (hostLoadByte addr s) ∧
      servedExactlyIf (isByteRegion (regionOf addr.toNat) = true) (hostStoreByte addr v s) := by
  unfold hostLoadByte hostStoreByte
  match regionOf addr.toNat with
  | some .buffer | some .genBuf | some (.gfExp _) | some (.gfLog _) | some (.frame _ _) =>
    exact ⟨.next rfl _, .next rfl _⟩
  | some (.reg _) | some (.segTable _) | none =>
    exact ⟨.busError Bool.false_ne_true, .busError Bool.false_ne_true⟩

theorem mapsTo_word_iff (addr : Word) :
    addr.toNat % 4 = 0 ∧ isWordRegion (regionOf addr.toNat) = true ↔ mapsTo (.lw addr) :=
  and_congr_right fun _ => isWordRegion_regionOf

/-- Every access is served exactly where the map allows it; a load and a store of one width go to the
same regions, and a wait is no access to an address. -/
theorem hostAccess_served (a : HostAction) (s : State) :
    servedExactlyIf (mapsTo a) (hostAccess a s) := by
  cases a with
  | lw addr => exact (wordAccess_served addr 0 s).1.congr (mapsTo_word_iff addr)
  | sw addr v => exact (wordAccess_served addr v s).2.congr (mapsTo_word_iff addr)
  | lb addr => exact (byteAccess_served addr 0 s).1.congr isByteRegion_regionOf
  | sb addr v => exact (byteAccess_served addr v s).2.congr isByteRegion_regionOf
  | wait => exact .next trivial _

/-- Settles O53: the step is the access, which is served in the regions of its width alone. -/
theorem busErrorExactlyOffTheMap : Obligations.BusErrorExactlyOffTheMap := by
  unfold Obligations.BusErrorExactlyOffTheMap
  intro s a rest hb hp
  rw [step_of_access hb hp]
  exact hostAccess_served a _

end Sys2Proof.Machine
end

section
/-! PROOFS. The decoder and the encoder: each is the other's inverse, and which words are no command. -/

namespace Sys2Proof

/-! ### The opcode -/

theorem Opcode.mem_all (op : Opcode) : op ∈ Opcode.all := by
  cases op <;> decide

theorem Opcode.ofCode_code (op : Opcode) : Opcode.ofCode op.code = some op := by
  cases op <;> rfl

/-- R62 gives each opcode one code, and no code to two of them. -/
theorem Opcode.ofCode_eq_some_iff {b : BitVec 8} {op : Opcode} :
    Opcode.ofCode b = some op ↔ op.code = b := by
  refine ⟨fun h => ?_, fun h => h ▸ op.ofCode_code⟩
  simpa using List.find?_some h

theorem Opcode.ofCode_eq_none_iff {b : BitVec 8} :
    Opcode.ofCode b = none ↔ b.toNat ∉ Opcode.all.map fun op => op.code.toNat := by
  simp [Opcode.ofCode, BitVec.toNat_inj]

theorem Opcode.instr_opcode (op : Opcode) (w : Word) : (op.instr w).opcode = op := by
  cases op <;> rfl

/-! ### The two ends of the decoder -/

theorem decode_eq_ok_iff {w : Word} {i : Instr} : decode w = .ok i ↔
    ∃ op : Opcode, op.code = opField w ∧ w &&& op.format.reservedMask = 0#32 ∧ op.instr w = i := by
  simp only [← Opcode.ofCode_eq_some_iff]
  unfold decode
  cases Opcode.ofCode (opField w) <;> simp [ite_eq_iff]

theorem exists_decode_eq_error_iff {w : Word} : (∃ e, decode w = .error e) ↔
    Opcode.ofCode (opField w) = none ∨
      ∃ op : Opcode, op.code = opField w ∧ w &&& op.format.reservedMask ≠ 0#32 := by
  simp only [← Opcode.ofCode_eq_some_iff]
  unfold decode
  cases Opcode.ofCode (opField w) <;> simp [ite_eq_iff]

/-- Settles O45: the decoder fails where the opcode is looked up in vain or its reserved bits are set, and
the Engine then ends with IllegalCommand. -/
theorem illegalWordsEndInIllegalCommand : Obligations.IllegalWordsEndInIllegalCommand := by
  unfold Obligations.IllegalWordsEndInIllegalCommand
  refine ⟨fun w => exists_decode_eq_error_iff.trans (or_congr Opcode.ofCode_eq_none_iff ?_),
    fun s e h => Machine.engineStep_of_error h⟩
  simp [Opcode.mem_all, opField]

/-! ### The fields of an encoded command -/

theorem encode_opField_and_reserved (i : Instr) : Laws.Encoding.Statement i := by
  cases i with
  | nop => exact Laws.Encoding.nop
  | softReset => exact Laws.Encoding.softReset
  | selClear => exact Laws.Encoding.selClear
  | selAdd mode count => exact Laws.Encoding.selAdd mode count
  | selRun version level => exact Laws.Encoding.selRun version level
  | specQuery version level => exact Laws.Encoding.specQuery version level
  | genPoly n => exact Laws.Encoding.genPoly n
  | rsEncode k n => exact Laws.Encoding.rsEncode k n
  | assemble => exact Laws.Encoding.assemble
  | cwReset => exact Laws.Encoding.cwReset
  | cwNext => exact Laws.Encoding.cwNext
  | frameInit => exact Laws.Encoding.frameInit
  | fillReset => exact Laws.Encoding.fillReset
  | fillNext => exact Laws.Encoding.fillNext
  | frameFill => exact Laws.Encoding.frameFill
  | mask m => exact Laws.Encoding.mask m

/-- A field of bits 23:0 of a command's word is that field of its operand bits. -/
theorem extractLsb'_encode (i : Instr) {start len : Nat} (h : start + len ≤ 24) :
    (encode i).extractLsb' start len = i.operandBits.extractLsb' start len :=
  BitVec.extractLsb'_append_eq_of_add_le h

theorem extractLsb'_append_middle {a b c : Nat} (x : BitVec a) (y : BitVec b) (z : BitVec c) :
    (x ++ y ++ z).extractLsb' c b = y := by
  rw [BitVec.extractLsb'_append_eq_of_le le_rfl, Nat.sub_self, BitVec.extractLsb'_append_eq_right]

/-- Format V, where VERSION has a reserved field on either side. -/
theorem version_of_operandBits (version : BitVec 6) (level : BitVec 2) :
    (0#10 ++ version ++ 0#6 ++ level).extractLsb' 8 6 = version := by
  rw [BitVec.extractLsb'_append_eq_of_le (by decide)]
  exact extractLsb'_append_middle _ _ _

/-- The decoder takes from a command's word the operands the encoder put there (R58). -/
theorem instr_encode (i : Instr) : i.opcode.instr (encode i) = i := by
  cases i with
  | nop | softReset | selClear | assemble | cwReset | cwNext | frameInit | fillReset | fillNext
  | frameFill => rfl
  | selAdd mode count =>
    exact congrArg₂ Instr.selAdd
      ((extractLsb'_encode _ (by decide)).trans (extractLsb'_append_middle 0#5 mode count))
      ((extractLsb'_encode _ (by decide)).trans BitVec.extractLsb'_append_eq_right)
  | selRun version level =>
    exact congrArg₂ Instr.selRun
      ((extractLsb'_encode _ (by decide)).trans (version_of_operandBits version level))
      ((extractLsb'_encode _ (by decide)).trans BitVec.extractLsb'_append_eq_right)
  | specQuery version level =>
    exact congrArg₂ Instr.specQuery
      ((extractLsb'_encode _ (by decide)).trans (version_of_operandBits version level))
      ((extractLsb'_encode _ (by decide)).trans BitVec.extractLsb'_append_eq_right)
  | genPoly n =>
    exact congrArg Instr.genPoly
      ((extractLsb'_encode _ (by decide)).trans BitVec.extractLsb'_append_eq_right)
  | rsEncode k n =>
    exact congrArg₂ Instr.rsEncode
      ((extractLsb'_encode _ (by decide)).trans (extractLsb'_append_middle 0#8 k n))
      ((extractLsb'_encode _ (by decide)).trans BitVec.extractLsb'_append_eq_right)
  | mask m =>
    exact congrArg Instr.mask
      ((extractLsb'_encode _ (by decide)).trans BitVec.extractLsb'_append_eq_right)

theorem decode_encode (i : Instr) : decode (encode i) = .ok i := by
  obtain ⟨hop, hres⟩ := encode_opField_and_reserved i
  exact decode_eq_ok_iff.2 ⟨i.opcode, hop.symm, hres, instr_encode i⟩

/-- Settles O43: the encoder's word carries the opcode and no reserved bit, and its fields are the
operands. -/
theorem decodeOfEncode : Obligations.DecodeOfEncode := decode_encode

/-! ### The word of a decoded command -/

/-- Reserved bits that stand together are 0 in a word the mask lets pass (R63). -/
theorem reservedField_eq_zero {w m : Word} (h : w &&& m = 0#32) {start len : Nat}
    (hm : m.extractLsb' start len = BitVec.allOnes len) : w.extractLsb' start len = 0#len := by
  rw [← BitVec.and_allOnes (x := w.extractLsb' start len), ← hm, ← BitVec.extractLsb'_and, h]
  exact BitVec.extractLsb'_zero

/-- With the reserved bits 0, the fields and the reserved parts between them make up bits 23:0 (R57). -/
theorem operandBits_instr (op : Opcode) {w : Word} (h : w &&& op.format.reservedMask = 0#32) :
    (op.instr w).operandBits = w.extractLsb' 0 24 := by
  cases op with
  | nop | softReset | selClear | assemble | cwReset | cwNext | frameInit | fillReset | fillNext
  | frameFill => exact (reservedField_eq_zero h rfl).symm
  | selAdd =>
    have hres : w.extractLsb' 19 5 = 0#5 := reservedField_eq_zero h rfl
    simp only [Opcode.instr, Instr.operandBits, ← hres, modeField, countField,
      BitVec.extractLsb'_append_extractLsb'_eq_extractLsb']
  | selRun | specQuery =>
    have hhigh : w.extractLsb' 14 10 = 0#10 := reservedField_eq_zero h rfl
    have hmid : w.extractLsb' 2 6 = 0#6 := reservedField_eq_zero h rfl
    simp only [Opcode.instr, Instr.operandBits, ← hhigh, ← hmid, versionField, levelField,
      BitVec.extractLsb'_append_extractLsb'_eq_extractLsb']
  | genPoly =>
    have hres : w.extractLsb' 8 16 = 0#16 := reservedField_eq_zero h rfl
    simp only [Opcode.instr, Instr.operandBits, ← hres, nField,
      BitVec.extractLsb'_append_extractLsb'_eq_extractLsb']
  | rsEncode =>
    have hres : w.extractLsb' 16 8 = 0#8 := reservedField_eq_zero h rfl
    simp only [Opcode.instr, Instr.operandBits, ← hres, kField, nField,
      BitVec.extractLsb'_append_extractLsb'_eq_extractLsb']
  | mask =>
    have hres : w.extractLsb' 3 21 = 0#21 := reservedField_eq_zero h rfl
    simp only [Opcode.instr, Instr.operandBits, ← hres, maskField,
      BitVec.extractLsb'_append_extractLsb'_eq_extractLsb']

/-- Settles O44: the opcode in bits 31:24 and the operand bits below are the whole word. -/
theorem encodeOfDecode : Obligations.EncodeOfDecode := by
  unfold Obligations.EncodeOfDecode
  intro w i h
  obtain ⟨op, hop, hres, rfl⟩ := decode_eq_ok_iff.1 h
  rw [encode, Opcode.instr_opcode, hop, operandBits_instr op hres]
  exact BitVec.extractLsb'_append_extractLsb' (w := 8) (len := 24)

end Sys2Proof
end

section
/-! PROOFS. `do X` on the idle block: the write of CMD, the polls of the wait, the command, and the end of
the wait (R67). -/

namespace Sys2Proof.Machine

open Sys2Proof

/-! ### The runs of the machine -/

theorem run_of_step {M : Host.Core} {s u : M.State} (h : M.step s = .next u) (k : Nat) :
    M.run (k + 1) s = M.run k u := by
  rw [Host.Core.run, h]

/-! ### The steps of a wait -/

theorem step_wait_polls {s : State} {rest : List HostAction} (hb : s.busy = true)
    (hp : s.port = .wait :: rest) (n : Nat) :
    step { s with busyLeft := n + 1 } = .next { s with busyLeft := n } := by
  rw [step_of_busy (s := { s with busyLeft := n + 1 }) hb]
  simp [busyStep, hp, allowedWhileBusy, busyRead]

/-- The polls drawn pass before the Engine moves, whatever their number (R143). -/
theorem run_wait_polls {s : State} {rest : List HostAction} (hb : s.busy = true)
    (hp : s.port = .wait :: rest) (n k : Nat) :
    Host.Core.run Sys2Proof.core (k + n) { s with busyLeft := n } =
      Host.Core.run Sys2Proof.core k { s with busyLeft := 0 } := by
  induction n with
  | zero => rfl
  | succ n ih => exact (run_of_step (step_wait_polls hb hp n) (k + n)).trans ih

theorem step_wait_idle {s : State} {rest : List HostAction} (hb : s.busy = false)
    (hp : s.port = .wait :: rest) : step s = .next { s with port := rest } :=
  step_of_access hb hp

/-! ### What a command leaves of the port -/

theorem exec_keeps_port {i : Instr} {s t : State} (h : exec i s = .next t) : t.port = s.port := by
  have hs : exec i s = Result.withHost s.port s.replies s.draws (exec i s) := exec_withHost i s
  rw [h] at hs
  injection hs with hs
  exact (congrArg State.port hs :)

theorem exec_clears_busy {i : Instr} {s t : State} (h : exec i s = .next t) : t.busy = false := by
  cases exec_cases h with
  | fails => rfl
  | succeeds => rfl

/-! ### `do X` -/

/-- The write of X's word starts X, with the polls still to come. -/
theorem step_do {i : Instr} {s : State} {rest : List HostAction} (hb : s.busy = false)
    (hp : s.port = scriptDo i ++ rest) :
    step s = .next { startedBy i rest s with busyLeft := Config.latency s.draws } := by
  rw [step_of_access hb hp]
  exact hostStoreWord_cmd (encode i) { s with port := .wait :: rest }

theorem step_startedBy (i : Instr) (rest : List HostAction) (s : State) :
    step (startedBy i rest s) = exec i (startedBy i rest s) :=
  step_eq_exec rfl (decode_encode i) (.inr ⟨.wait, rest, rfl, rfl, rfl⟩)

/-- Settles O56: one step for the write, one for each poll drawn, one for the command and one for the wait
that finds BUSY 0. -/
theorem doCommandRunsToCompletion : Obligations.DoCommandRunsToCompletion := by
  unfold Obligations.DoCommandRunsToCompletion
  intro i s t rest hb hp ht
  have hidle : t.busy = false := exec_clears_busy ht
  refine ⟨2 + Config.latency s.draws + 1, ?_, hidle⟩
  calc Host.Core.run Sys2Proof.core (2 + Config.latency s.draws + 1) s
    _ = Host.Core.run Sys2Proof.core (2 + Config.latency s.draws)
          { startedBy i rest s with busyLeft := Config.latency s.draws } :=
        run_of_step (step_do hb hp) _
    _ = Host.Core.run Sys2Proof.core 2 (startedBy i rest s) := run_wait_polls rfl rfl _ 2
    _ = Host.Core.run Sys2Proof.core 1 t := run_of_step ((step_startedBy i rest s).trans ht) 1
    _ = .next { t with port := rest } := run_of_step (step_wait_idle hidle (exec_keeps_port ht)) 0

end Sys2Proof.Machine
end

section
/-! PROOFS. The control commands: NOP and SOFT_RESET. Also what a command word and a success completion
are for every command. -/

namespace Sys2Proof.Machine

open Sys2Proof

/-! ### The word of a command -/

/-- A word of an assigned opcode with a reserved bit of its format set is no command (R63, R64). -/
theorem engineStep_of_reservedBit {op : Opcode} {s : State} (hop : op.code = opField s.cmd)
    (hres : s.cmd &&& op.format.reservedMask ≠ 0#32) :
    engineStep s = .next (s.fail .illegalCommand) := by
  obtain ⟨e, he⟩ := exists_decode_eq_error_iff.2 (.inr ⟨op, hop, hres⟩)
  exact engineStep_of_error he

theorem encodedAs_encode (i : Instr) : encodedAs (encode i) i.opcode i := by
  refine ⟨decode_encode i, fun x s hop hres hx => ?_⟩
  subst hx
  exact engineStep_of_reservedBit hop.symm hres

/-! ### What a success completion keeps (R126) -/

theorem completedFrom_complete (s : State) : completedFrom s s.complete := ⟨rfl, rfl, rfl⟩

theorem stagesKept_complete (s : State) : stagesKept s s.complete := ⟨rfl, rfl⟩

theorem regsKept_complete (s : State) : regsKept [.status, .errcode] s s.complete := by
  intro r hr
  cases r with
  | status | errcode => simp at hr
  | _ => rfl

theorem hostSideKept_complete (s : State) : hostSideKept s s.complete := ⟨rfl, rfl, rfl, rfl⟩

/-! ### NOP -/

/-- Settles O2: NOP is the success completion of the state it finds. -/
theorem nopOnlyCompletes : Obligations.NopOnlyCompletes := by
  unfold Obligations.NopOnlyCompletes
  exact ⟨rfl, encodedAs_encode .nop, fun s =>
    ⟨s.complete, rfl, completedFrom_complete s, stagesKept_complete s, rfl, regsKept_complete s,
      fun _ => rfl, hostSideKept_complete s⟩⟩

/-! ### SOFT_RESET -/

/-- The reset has already written what a success completion writes, so SOFT_RESET ends in it. -/
theorem exec_softReset (s : State) : exec .softReset s = .next (resetRegisters s) := rfl

/-- Every register reads 0 after reset (R136). -/
theorem read_reset (r : Reg) : r.read State.reset = 0#32 := by
  cases r <;> decide

/-- What SOFT_RESET leaves of the state it finds is no part of a register (R41, R69). -/
theorem read_resetRegisters (r : Reg) (s : State) : r.read (resetRegisters s) = r.read State.reset := by
  cases r <;> rfl

theorem hostSideKept_resetRegisters (s : State) : hostSideKept s (resetRegisters s) :=
  ⟨rfl, rfl, rfl, rfl⟩

/-- MASK asks for FRAME_STAGE at least FILLED (R124). -/
theorem execMask_notReady (m : BitVec 3) {s : State} (h : s.frameStage.isFilled = false) :
    execMask m s = .next (s.fail .notReady) := by
  rw [execMask, h]
  rfl

/-- Settles O3: SOFT_RESET leaves the reset registers over the storage it finds, and FRAME_STAGE NONE is
not enough for MASK. -/
theorem softResetClearsRegistersKeepsStorage : Obligations.SoftResetClearsRegistersKeepsStorage := by
  unfold Obligations.SoftResetClearsRegistersKeepsStorage
  exact ⟨encodedAs_encode .softReset, fun s =>
    ⟨resetRegisters s, exec_softReset s, fun r => (read_resetRegisters r s).trans (read_reset r),
      fun _ => rfl, fun _ => rfl, hostSideKept_resetRegisters s, fun m => execMask_notReady m rfl⟩⟩

end Sys2Proof.Machine
end

section
/-! PROOFS. The capacity tables: the laws of their rows, the format and version words, and SPEC_QUERY, which
loads a row whole. -/

namespace Sys2Proof.Machine

open Sys2Proof

/-! ### The rows of the capacity table -/

/-- What holds of each of the versions 1..40 listed holds of every version of the table. -/
theorem forall_version {p : Nat → Prop} (h : ∀ v ∈ List.range' 1 Config.maxVersion, p v) :
    ∀ v, 1 ≤ v → v ≤ 40 → p v := by
  intro v h1 h40
  have hmax : Config.maxVersion = 40 := rfl
  exact h v (List.mem_range'_1.2 (by omega))

/-- Settles O9: each of the 160 rows is checked. -/
theorem capacityRowsAddUp : Obligations.CapacityRowsAddUp := by
  unfold Obligations.CapacityRowsAddUp
  exact forall_version (by decide)

/-! ### The spec result registers (R81) -/

/-- The widths of the registers (R21) that the laws of R72 do not bound by themselves. -/
theorem blockCounts_lt_remainderBits_lt : ∀ v, 1 ≤ v → v ≤ 40 → ∀ l < 4,
    (capacityRow v l).g1 < 2 ^ 7 ∧ (capacityRow v l).g2 < 2 ^ 7 ∧ remainderBits v < 2 ^ 3 :=
  forall_version (by decide)

/-- No value of a row of the table is truncated in its register. -/
theorem specLoaded_of_spec {t : State} {v l : Nat} (h1 : 1 ≤ v) (h40 : v ≤ 40) (hl : l < 4)
    (hvalid : t.specValid = true) (hspec : t.spec = SpecRegs.of v l) : specLoaded v l t := by
  obtain ⟨-, -, htotal, -, -, hd1, hd2, he, hmax, -⟩ := capacityRowsAddUp v h1 h40 l hl
  obtain ⟨hg1, hg2, hrem⟩ := blockCounts_lt_remainderBits_lt v h1 h40 l hl
  have hecc : (capacityRow v l).eccPerBlock ≤ 30 := by
    simp only [List.mem_cons, List.not_mem_nil, or_false] at he
    omega
  unfold specLoaded
  rw [hspec]
  simp only [SpecRegs.of, symbolWidth, BitVec.toNat_ofNat]
  refine ⟨hvalid, ?_, ?_, ?_, ?_, ?_, ?_, ?_, ?_, ?_, ?_, ?_, ?_⟩ <;> exact Nat.mod_eq_of_lt (by omega)

/-- The frame of SpecLoad and of the write of REQ_BITS that goes with it (R82, R90). -/
theorem regsKept_loadSpec (s : State) (v l : Nat) (bits : BitVec 15) :
    regsKept ([.status, .errcode, .reqBits] ++ specRegList) s
      ({ s.loadSpec v l with reqBits := bits } : State).complete := by
  intro r hr
  cases r with
  | cmd | segcount | frameVersion | maskCur | formatBits | versionBits | fillPos | cwIndex | cwOut
  | genDegree => rfl
  | _ => simp [specRegList] at hr

/-! ### SPEC_QUERY -/

/-- The word of a command of format V, its fields side by side (R57). -/
theorem append_formatV (op : BitVec 8) (version : BitVec 6) (level : BitVec 2) :
    op ++ 0#10 ++ version ++ 0#6 ++ level = op ++ (0#10 ++ version ++ 0#6 ++ level) := by
  simp only [BitVec.append_assoc, BitVec.cast_eq]

/-- The VERSIONs that SPEC_QUERY takes (R82). -/
theorem legalQueryVersion_iff {version : BitVec 6} :
    legalQueryVersion version = true ↔ 1 ≤ version.toNat ∧ version.toNat ≤ 40 := by
  rw [legalQueryVersion, Bool.and_eq_true, decide_eq_true_eq, decide_eq_true_eq]
  rfl

theorem execSpecQuery_of_range {version : BitVec 6} (h1 : 1 ≤ version.toNat) (h40 : version.toNat ≤ 40)
    (level : BitVec 2) (s : State) :
    execSpecQuery version level s =
      .next ({ s.loadSpec version.toNat level.toNat with reqBits := 0 } : State).complete := by
  rw [execSpecQuery, legalQueryVersion_iff.2 ⟨h1, h40⟩]
  rfl

theorem execSpecQuery_of_outside {version : BitVec 6} (h : version.toNat = 0 ∨ 40 < version.toNat)
    (level : BitVec 2) (s : State) :
    execSpecQuery version level s = .next (s.fail .invalidArgument) := by
  have hlegal : ¬ legalQueryVersion version = true := by
    rw [legalQueryVersion_iff]
    omega
  rw [execSpecQuery, Bool.eq_false_of_not_eq_true hlegal]
  rfl

/-- Settles O8: a legal VERSION loads its row, which the registers hold whole, and any other is refused. -/
theorem specQueryLoadsSpec : Obligations.SpecQueryLoadsSpec := by
  unfold Obligations.SpecQueryLoadsSpec
  intro version level s
  refine ⟨?_, fun h1 h40 => ⟨_, execSpecQuery_of_range h1 h40 level s, ?_⟩,
    fun h => execSpecQuery_of_outside h level s⟩
  · rw [append_formatV]
    exact encodedAs_encode (.specQuery version level)
  · exact ⟨completedFrom_complete _, specLoaded_of_spec h1 h40 level.isLt rfl rfl, rfl, rfl, rfl,
      regsKept_loadSpec s _ _ _, fun _ => rfl, ⟨rfl, rfl, rfl, rfl⟩⟩

/-! ### The format and version words -/

/-- Settles O10: the 32 divisions of R77 and the 34 of R79, carried out. -/
theorem formatAndVersionWords : Obligations.FormatAndVersionWords := by
  unfold Obligations.FormatAndVersionWords
  exact ⟨by decide, by decide⟩

end Sys2Proof.Machine
end

section
/-! PROOFS. The version selector: Fits and the search for a version in the words of R86 and R90, the sum of
R84, and the three commands that keep and use the segment list. -/

namespace Sys2Proof.Machine

open Sys2Proof

/-! ### Fits and the search for a version -/

theorem fits_iff {p : Config.Params} {segs : List Segment} {v l : Nat} :
    fits p segs v l = true ↔ listFits p segs v l := by
  simp [fits, fitsIndicator, listFits]

/-- Trying the versions in ascending order finds the smallest one that fits (R87, R90). -/
theorem smallestVersion_eq_some_iff {p : Config.Params} {segs : List Segment} {l v : Nat} :
    smallestVersion p segs l = some v ↔
      1 ≤ v ∧ v ≤ 40 ∧ listFits p segs v l ∧ ∀ u, 1 ≤ u → u < v → ¬ listFits p segs u l := by
  have hrange : v ∈ List.range' 1 Config.maxVersion ↔ 1 ≤ v ∧ v ≤ 40 := by
    rw [List.mem_range'_1, Config.maxVersion]
    omega
  have hfails : ∀ u, (!fits p segs u l) = true ↔ ¬ listFits p segs u l := by
    simp [← fits_iff]
  rw [smallestVersion, List.find?_range'_eq_some, hrange, fits_iff, and_left_comm, and_assoc]
  simp only [hfails]

/-- The model's choice of the version is the one R90 states. -/
theorem resolveVersion_eq_some_iff {s : State} {version l v : Nat} :
    resolveVersion s version l = some v ↔ resolvesTo s version l v := by
  unfold resolveVersion resolvesTo
  split_ifs with h0 hfits
  · exact smallestVersion_eq_some_iff
  · rw [Option.some_inj, eq_comm, iff_self_and]
    rintro rfl
    exact fits_iff.1 hfits
  · refine iff_of_false (by simp) ?_
    rintro ⟨rfl, hlist⟩
    exact hfits (fits_iff.2 hlist)

theorem resolveVersion_eq_none_iff {s : State} {version l : Nat} :
    resolveVersion s version l = none ↔ ∀ v, ¬ resolvesTo s version l v := by
  simp only [Option.eq_none_iff_forall_ne_some, ne_eq, resolveVersion_eq_some_iff]

/-- Settles O7: at version 9 the sum of the eighty segments is 4 + 80 · 20 bits against 1856, at version 10,
with the wider length indicator, 4 + 80 · 28 against 2192. -/
theorem fitsIsNotMonotone : Obligations.FitsIsNotMonotone := by
  unfold Obligations.FitsIsNotMonotone
  rw [← fits_iff, ← fits_iff]
  decide

/-! ### The sum of R84 -/

theorem totalBits_cons (p : Config.Params) (g : Segment) (segs : List Segment) (v : Nat) :
    totalBits p (g :: segs) v = totalBits p segs v +
      (4 + lengthIndicator p g.mode v + payloadBits p g.mode g.count.toNat) := by
  simp only [totalBits, segmentBits, Config.modeIndicatorBits, List.map_cons, List.sum_cons]
  omega

/-- The tail of a Numeric payload: one digit left over takes 4 bits, two take 7 (R83). -/
theorem payloadBits_numeric (p : Config.Params) (n : Nat) :
    payloadBits p .numeric n = 10 * (n / 3) + if n % 3 = 0 then 0 else if n % 3 = 1 then 4 else 7 := by
  have hlt : n % 3 < 3 := Nat.mod_lt n (by decide)
  unfold payloadBits
  interval_cases n % 3 <;> rfl

theorem lengthIndicator_default : ∀ v, 1 ≤ v → v ≤ 40 →
    lengthIndicator defaultParams .numeric v = (if v ≤ 9 then 10 else if v ≤ 26 then 12 else 14) ∧
    lengthIndicator defaultParams .alphanumeric v = (if v ≤ 9 then 9 else if v ≤ 26 then 11 else 13) ∧
    lengthIndicator defaultParams .byte v = (if v ≤ 9 then 8 else 16) ∧
    lengthIndicator defaultParams .kanji v = (if v ≤ 9 then 8 else if v ≤ 26 then 10 else 12) :=
  forall_version (by decide)

/-! ### SEL_RUN -/

/-- The VERSIONs that SEL_RUN takes (R61). -/
theorem legalRunVersion_iff {version : BitVec 6} :
    legalRunVersion version = true ↔ version.toNat ≤ 40 := by
  rw [legalRunVersion, decide_eq_true_eq]
  rfl

section
variable {version : BitVec 6} {level : BitVec 2} {s : State}

theorem execSelRun_of_outside (h : 40 < version.toNat) :
    execSelRun version level s = .next (s.fail .invalidArgument) := by
  have hlegal : ¬ legalRunVersion version = true := by
    rw [legalRunVersion_iff]
    omega
  rw [execSelRun, Bool.eq_false_of_not_eq_true hlegal]
  rfl

theorem execSelRun_of_empty (h40 : version.toNat ≤ 40) (h : s.segments = []) :
    execSelRun version level s = .next (s.fail .emptyInput) := by
  rw [execSelRun, legalRunVersion_iff.2 h40, if_pos h]
  rfl

theorem execSelRun_of_unresolved (h40 : version.toNat ≤ 40) (hs : s.segments ≠ [])
    (h : ∀ v, ¬ resolvesTo s version.toNat level.toNat v) :
    execSelRun version level s = .next (s.fail .capacityExceeded) := by
  rw [execSelRun, legalRunVersion_iff.2 h40, if_neg hs, resolveVersion_eq_none_iff.2 h]
  rfl

theorem execSelRun_of_resolvesTo {v : Nat} (h40 : version.toNat ≤ 40) (hs : s.segments ≠ [])
    (h : resolvesTo s version.toNat level.toNat v) :
    execSelRun version level s =
      .next ({ s.loadSpec v level.toNat with
        reqBits := BitVec.ofNat 15 (totalBits s.params s.segments v) } : State).complete := by
  rw [execSelRun, legalRunVersion_iff.2 h40, if_neg hs, resolveVersion_eq_some_iff.2 h]
  rfl

end

/-- REQ_BITS is wide enough for the sum of a list that fits. -/
theorem toNat_reqBits_of_fits {p : Config.Params} {segs : List Segment} {v l : Nat} (h40 : v ≤ 40)
    (hl : l < 4) (h : fits p segs v l = true) :
    (BitVec.ofNat 15 (totalBits p segs v)).toNat = totalBits p segs v := by
  have hle := totalBits_le_of_fits h40 hl h
  rw [BitVec.toNat_ofNat]
  exact Nat.mod_eq_of_lt (by omega)

/-- Settles O6: the version resolved is one of the table, its row and the sum fit their registers, and each
error is the first that applies. -/
theorem selRunResolvesVersion : Obligations.SelRunResolvesVersion := by
  unfold Obligations.SelRunResolvesVersion
  refine ⟨fun p v => ⟨rfl, fun g segs => ?_⟩, fun v h1 h40 mode => ?_, rfl, fun version level s =>
    ⟨?_, fun v h40 hs h => ⟨_, execSelRun_of_resolvesTo h40 hs h, ?_⟩, execSelRun_of_outside,
      execSelRun_of_empty, execSelRun_of_unresolved⟩⟩
  · rw [totalBits_cons]
    obtain ⟨mode, count⟩ := g
    cases mode with
    | numeric => rw [payloadBits_numeric]
    | alphanumeric | byte | kanji => rfl
  · obtain ⟨hn, ha, hb, hk⟩ := lengthIndicator_default v h1 h40
    cases mode with
    | numeric => exact hn
    | alphanumeric => exact ha
    | byte => exact hb
    | kanji => exact hk
  · rw [append_formatV]
    exact encodedAs_encode (.selRun version level)
  · have hresolved := resolveVersion_eq_some_iff.2 h
    obtain ⟨hv1, hv40⟩ := range_of_resolveVersion h40 hresolved
    exact ⟨completedFrom_complete _, specLoaded_of_spec hv1 hv40 level.isLt rfl rfl,
      toNat_reqBits_of_fits hv40 level.isLt (fits_of_resolveVersion hresolved), rfl, rfl,
      regsKept_loadSpec s _ _ _, fun _ => rfl, ⟨rfl, rfl, rfl, rfl⟩⟩

/-! ### SEL_CLEAR and SEL_ADD -/

/-- The frame of a command that writes the segment list alone (R88, R89). -/
theorem regsKept_segments (s : State) (segs : List Segment) :
    regsKept [.status, .errcode, .segcount] s ({ s with segments := segs } : State).complete := by
  intro r hr
  cases r with
  | status | errcode | segcount => simp at hr
  | _ => rfl

/-- Settles O4: the list is empty, and no other field than the completion's is written. -/
theorem selClearEmptiesSegmentList : Obligations.SelClearEmptiesSegmentList := by
  unfold Obligations.SelClearEmptiesSegmentList
  exact ⟨encodedAs_encode .selClear, fun s =>
    ⟨({ s with segments := [] } : State).complete, rfl, completedFrom_complete _, ⟨rfl, rfl⟩, rfl,
      fun _ => rfl, regsKept_segments s [], fun _ => rfl, ⟨rfl, rfl, rfl, rfl⟩⟩⟩

/-- The MODEs below 4 are the codes of the four modes (R59). -/
theorem exists_modeOfOperand_of_lt {mode : BitVec 3} (h : mode.toNat < 4) :
    ∃ m : Mode, modeOfOperand mode = some m ∧ m.code = mode := by
  obtain h0 | h1 | h2 | h3 : mode = 0#3 ∨ mode = 1#3 ∨ mode = 2#3 ∨ mode = 3#3 := by bv_omega
  · exact ⟨.numeric, by rw [h0]; rfl, h0.symm⟩
  · exact ⟨.alphanumeric, by rw [h1]; rfl, h1.symm⟩
  · exact ⟨.byte, by rw [h2]; rfl, h2.symm⟩
  · exact ⟨.kanji, by rw [h3]; rfl, h3.symm⟩

theorem modeOfOperand_eq_none_of_le : ∀ mode : BitVec 3, 4 ≤ mode.toNat → modeOfOperand mode = none := by
  decide

/-- The word of a command of format S, its fields side by side (R57). -/
theorem append_formatS (op : BitVec 8) (mode : BitVec 3) (count : BitVec 16) :
    op ++ 0#5 ++ mode ++ count = op ++ (0#5 ++ mode ++ count) := by
  simp only [BitVec.append_assoc, BitVec.cast_eq]

section
variable {mode : BitVec 3} {count : BitVec 16} {s : State}

theorem execSelAdd_of_undefinedMode (h : 4 ≤ mode.toNat) :
    execSelAdd mode count s = .next (s.fail .invalidArgument) := by
  rw [execSelAdd, modeOfOperand_eq_none_of_le mode h]
  rfl

theorem execSelAdd_of_zeroCount {m : Mode} (hm : modeOfOperand mode = some m) (h : count = 0) :
    execSelAdd mode count s = .next (s.fail .invalidPayloadForMode) := by
  rw [execSelAdd, hm, h]
  rfl

theorem execSelAdd_of_full {m : Mode} (hm : modeOfOperand mode = some m) (hc : count ≠ 0)
    (h : Config.maxSegments ≤ s.segments.length) :
    execSelAdd mode count s = .next (s.fail .segmentListFull) := by
  simp only [execSelAdd, hm]
  rw [if_neg hc, if_pos h]
  rfl

theorem execSelAdd_of_room {m : Mode} (hm : modeOfOperand mode = some m) (hc : count ≠ 0)
    (h : s.segments.length < Config.maxSegments) :
    execSelAdd mode count s =
      .next ({ s with segments := s.segments ++ [⟨m, count⟩] } : State).complete := by
  simp only [execSelAdd, hm]
  rw [if_neg hc, if_neg (Nat.not_le_of_lt h)]
  rfl

end

theorem segTableWord_append_self {s t : State} {g : Segment} (h : t.segments = s.segments ++ [g]) :
    segTableWord t s.segments.length = g.word := by
  simp [segTableWord, h]

theorem segTableWord_append_ne {s t : State} {g : Segment} (h : t.segments = s.segments ++ [g]) {i : Nat}
    (hi : i ≠ s.segments.length) : segTableWord t i = segTableWord s i := by
  have hget : t.segments[i]? = s.segments[i]? := by
    rw [h]
    obtain hlt | hgt := Nat.lt_or_gt_of_ne hi
    · exact List.getElem?_append_left hlt
    · rw [List.getElem?_eq_none hgt.le]
      exact List.getElem?_eq_none (by rw [List.length_append, List.length_singleton]; omega)
  rw [segTableWord, segTableWord, hget]

/-- SEGCOUNT's nine bits hold the length of a list that had room (R29). -/
theorem toNat_segCount_append {s t : State} {g : Segment} (h : t.segments = s.segments ++ [g])
    (hroom : s.segments.length < 256) : (segCount t).toNat = s.segments.length + 1 := by
  rw [segCount, h, List.length_append, List.length_singleton]
  rw [BitVec.toNat_ofNat]
  exact Nat.mod_eq_of_lt (by omega)

/-- Settles O5: the new segment stands behind the list as it was, and each error is the first that
applies. -/
theorem selAddAppendsSegment : Obligations.SelAddAppendsSegment := by
  unfold Obligations.SelAddAppendsSegment
  intro mode count s
  refine ⟨?_, fun h4 hc hroom => ?_, execSelAdd_of_undefinedMode, fun h4 hc => ?_,
    fun h4 hc hfull => ?_⟩
  · rw [append_formatS]
    exact encodedAs_encode (.selAdd mode count)
  · obtain ⟨m, hm, rfl⟩ := exists_modeOfOperand_of_lt h4
    exact ⟨_, execSelAdd_of_room hm hc hroom, completedFrom_complete _, ⟨rfl, rfl⟩,
      toNat_segCount_append rfl hroom, segTableWord_append_self (g := ⟨m, count⟩) rfl,
      fun _ hi => segTableWord_append_ne rfl hi, regsKept_segments s _, fun _ => rfl,
      ⟨rfl, rfl, rfl, rfl⟩⟩
  · obtain ⟨m, hm, -⟩ := exists_modeOfOperand_of_lt h4
    exact execSelAdd_of_zeroCount hm hc
  · obtain ⟨m, hm, -⟩ := exists_modeOfOperand_of_lt h4
    exact execSelAdd_of_full hm hc hfull

end Sys2Proof.Machine
end

section
/-! PROOFS. The field GF(2^8): the tables of R93 and R94 list the powers of α, and ⊗ is the product of R91
with the laws of a field. -/

namespace Sys2Proof.Machine

open Sys2Proof

/-! ### The tables -/

theorem gfExp_succ : ∀ i < 254, gfExp (i + 1) = gfDouble (gfExp i) := by
  decide +kernel

theorem gfExp_gfLog : ∀ x < 256, 1 ≤ x →
    (gfLog x).toNat ≤ 254 ∧ gfExp (gfLog x).toNat = BitVec.ofNat 8 x := by
  decide +kernel

theorem gfLog_gfExp : ∀ i < 255, (gfLog (gfExp i).toNat).toNat = i := by
  decide +kernel

theorem gfExp_ne_zero : ∀ i < 255, gfExp i ≠ 0#8 := by
  decide +kernel

/-- Settles O11: each entry of the two tables is checked. -/
theorem gfTablesListPowersOfAlpha : Obligations.GfTablesListPowersOfAlpha := by
  unfold Obligations.GfTablesListPowersOfAlpha
  exact ⟨rfl, gfExp_succ, by decide, rfl, rfl, fun x h1 h256 => gfExp_gfLog x h256 h1⟩

/-- Every byte but 0 is a power of α. -/
theorem exists_gfExp_of_ne_zero {a : Byte} (h : a ≠ 0#8) : ∃ i < 255, gfExp i = a := by
  have h1 : 1 ≤ a.toNat := by bv_omega
  obtain ⟨hle, hexp⟩ := gfExp_gfLog a.toNat a.isLt h1
  exact ⟨_, Nat.lt_succ_of_le hle, by rw [hexp, BitVec.ofNat_toNat, BitVec.setWidth_eq]⟩

/-- Doubling is the next power, the exponent counted modulo 255 (R93). -/
theorem gfDouble_gfExp_mod (m : Nat) : gfDouble (gfExp (m % 255)) = gfExp ((m + 1) % 255) := by
  obtain hlt | hlast : m % 255 < 254 ∨ m % 255 = 254 := by omega
  · rw [← gfExp_succ _ hlt]
    congr 1
    omega
  · rw [hlast, show (m + 1) % 255 = 0 by omega]
    decide

theorem iterate_gfDouble_gfExp (i j : Nat) : gfDouble^[j] (gfExp (i % 255)) = gfExp ((i + j) % 255) := by
  induction j with
  | zero => rfl
  | succ j ih => rw [Function.iterate_succ_apply', ih, gfDouble_gfExp_mod, Nat.add_assoc]

/-- A reduction step is linear over ⊕: g is added when the bits that ask for it differ. -/
theorem xor_ite_xor (p q : Bool) (x y g : Nat) :
    (if p ^^ q then x ^^^ y ^^^ g else x ^^^ y) =
      (if p then x ^^^ g else x) ^^^ (if q then y ^^^ g else y) := by
  cases p <;> cases q <;> grind

/-- Doubling with its reduction is linear over ⊕. -/
theorem gfDouble_xor (a b : Byte) : gfDouble (a ^^^ b) = gfDouble a ^^^ gfDouble b := by
  have hshift : (a ^^^ b).toNat * 2 = a.toNat * 2 ^^^ b.toNat * 2 := by
    simpa [Nat.shiftLeft_eq] using Nat.shiftLeft_xor_distrib (i := 1) (a := a.toNat) (b := b.toNat)
  simp only [gfDouble, hshift, Nat.testBit_xor, xor_ite_xor, BitVec.ofNat_xor]

/-! ### The product -/

@[simp] theorem gfMul_zero (a : Byte) : gfMul a 0#8 = 0#8 := if_pos (.inr rfl)

@[simp] theorem zero_gfMul (b : Byte) : gfMul 0#8 b = 0#8 := if_pos (.inl rfl)

theorem gfMul_comm (a b : Byte) : gfMul a b = gfMul b a := by
  simp only [gfMul, or_comm, Nat.add_comm]

theorem gfMul_of_ne_zero {a b : Byte} (ha : a ≠ 0#8) (hb : b ≠ 0#8) :
    gfMul a b = gfExp (((gfLog a.toNat).toNat + (gfLog b.toNat).toNat) % 255) :=
  if_neg (not_or.2 ⟨ha, hb⟩)

theorem gfMul_gfExp {i j : Nat} (hi : i < 255) (hj : j < 255) :
    gfMul (gfExp i) (gfExp j) = gfExp ((i + j) % 255) := by
  rw [gfMul_of_ne_zero (gfExp_ne_zero i hi) (gfExp_ne_zero j hj), gfLog_gfExp i hi,
    gfLog_gfExp j hj]

/-- Multiplication by α^j is j doublings. -/
theorem gfMul_gfExp_eq_iterate (a : Byte) {j : Nat} (hj : j < 255) :
    gfMul a (gfExp j) = gfDouble^[j] a := by
  by_cases ha : a = 0#8
  · have h0 : gfDouble 0#8 = 0#8 := by decide
    rw [ha, zero_gfMul, Function.iterate_fixed h0]
  · obtain ⟨i, hi, rfl⟩ := exists_gfExp_of_ne_zero ha
    rw [gfMul_gfExp hi hj, ← iterate_gfDouble_gfExp, Nat.mod_eq_of_lt hi]

@[simp] theorem gfMul_one (a : Byte) : gfMul a 1#8 = a := gfMul_gfExp_eq_iterate a (j := 0) (by decide)

@[simp] theorem one_gfMul (a : Byte) : gfMul 1#8 a = a := by rw [gfMul_comm, gfMul_one]

/-- ⊗ distributes over ⊕, as doubling does. -/
theorem xor_gfMul (a b c : Byte) : gfMul (a ^^^ b) c = gfMul a c ^^^ gfMul b c := by
  by_cases hc : c = 0#8
  · rw [hc, gfMul_zero, gfMul_zero, gfMul_zero]
    rfl
  · obtain ⟨j, hj, rfl⟩ := exists_gfExp_of_ne_zero hc
    simp only [gfMul_gfExp_eq_iterate _ hj]
    exact Function.Semiconj₂.iterate gfDouble_xor j a b

theorem gfMul_xor (a b c : Byte) : gfMul a (b ^^^ c) = gfMul a b ^^^ gfMul a c := by
  rw [gfMul_comm, xor_gfMul, gfMul_comm b, gfMul_comm c]

theorem gfMul_assoc (a b c : Byte) : gfMul (gfMul a b) c = gfMul a (gfMul b c) := by
  by_cases h : a = 0#8 ∨ b = 0#8 ∨ c = 0#8
  · rcases h with rfl | rfl | rfl <;> simp
  · obtain ⟨ha, hb, hc⟩ : a ≠ 0#8 ∧ b ≠ 0#8 ∧ c ≠ 0#8 := by simpa only [not_or] using h
    obtain ⟨i, hi, rfl⟩ := exists_gfExp_of_ne_zero ha
    obtain ⟨j, hj, rfl⟩ := exists_gfExp_of_ne_zero hb
    obtain ⟨k, hk, rfl⟩ := exists_gfExp_of_ne_zero hc
    have hmod (m : Nat) : m % 255 < 255 := Nat.mod_lt m (by decide)
    rw [gfMul_gfExp hi hj, gfMul_gfExp (hmod _) hk, gfMul_gfExp hj hk, gfMul_gfExp hi (hmod _),
      Nat.mod_add_mod, Nat.add_mod_mod, Nat.add_assoc]

theorem gfMul_eq_zero {a b : Byte} (h : gfMul a b = 0#8) : a = 0#8 ∨ b = 0#8 := by
  by_contra hne
  obtain ⟨ha, hb⟩ := not_or.1 hne
  rw [gfMul_of_ne_zero ha hb] at h
  exact gfExp_ne_zero _ (Nat.mod_lt _ (by decide)) h

/-! ### The reduced polynomial product (R91) -/

/-- Reduction is linear over ⊕. -/
theorem polyRemainder_xor (g deg k x y : Nat) :
    polyRemainder g deg k (x ^^^ y) = polyRemainder g deg k x ^^^ polyRemainder g deg k y := by
  induction k generalizing x y with
  | zero => rfl
  | succ k ih =>
    rw [polyRemainder, polyRemainder, polyRemainder, ← ih, Nat.testBit_xor, xor_ite_xor]

theorem carrylessProduct_succ (k a b : Nat) :
    carrylessProduct (k + 1) a b =
      if b.testBit k then carrylessProduct k a b ^^^ a <<< k else carrylessProduct k a b := by
  rw [carrylessProduct]
  split
  · rfl
  · exact Nat.xor_zero _

theorem carrylessProduct_xor (k a b c : Nat) :
    carrylessProduct k a (b ^^^ c) = carrylessProduct k a b ^^^ carrylessProduct k a c := by
  induction k with
  | zero => exact (Nat.xor_self 0).symm
  | succ k ih =>
    rw [carrylessProduct_succ, carrylessProduct_succ, carrylessProduct_succ, ih, Nat.testBit_xor,
      xor_ite_xor]

/-- The product with one power of x is a shift, once the power is below the bound. -/
theorem carrylessProduct_two_pow (a : Nat) {i k : Nat} :
    carrylessProduct k a (2 ^ i) = if i < k then a <<< i else 0 := by
  induction k with
  | zero => rfl
  | succ k ih =>
    rw [carrylessProduct_succ, ih, Nat.testBit_two_pow]
    obtain hlt | rfl | hgt := Nat.lt_trichotomy i k
    · simp [hlt, hlt.ne, hlt.le]
    · simp
    · simp [hgt.ne', hgt.not_ge, hgt.not_gt]

/-- Two maps into the bytes that are linear over ⊕ agree on a number if they agree on the values of its
bits. -/
theorem eq_of_xor_linear {f g : Nat → Byte} (hf : ∀ x y, f (x ^^^ y) = f x ^^^ f y)
    (hg : ∀ x y, g (x ^^^ y) = g x ^^^ g y) {k : Nat} (h : ∀ i < k, f (2 ^ i) = g (2 ^ i)) (n : Nat)
    (hn : n < 2 ^ k) : f n = g n := by
  induction k generalizing n with
  | zero =>
    obtain rfl : n = 0 := by simpa using hn
    have h0 : ∀ b : Byte, b = b ^^^ b → b = 0#8 := by simp
    rw [h0 (f 0) (hf 0 0), h0 (g 0) (hg 0 0)]
  | succ k ih =>
    have hlow := ih fun i hi => h i (by omega)
    obtain hlt | hge := Nat.lt_or_ge n (2 ^ k)
    · exact hlow n hlt
    · have hdiv : n / 2 ^ k = 1 := Nat.div_eq_of_lt_le (by omega) (by omega)
      have hrest : (n ^^^ 2 ^ k) / 2 ^ k = 0 := by
        rw [Nat.xor_div_two_pow, hdiv, Nat.div_self (Nat.two_pow_pos k)]
        rfl
      have hsplit : n = n ^^^ 2 ^ k ^^^ 2 ^ k := (Nat.xor_xor_cancel_right n (2 ^ k)).symm
      rw [hsplit, hf, hg, h k (by omega), hlow _ (Nat.lt_of_div_eq_zero (Nat.two_pow_pos k) hrest)]

/-- The product of R91: the polynomial product, reduced. -/
def reducedProduct (a b : Nat) : Byte :=
  BitVec.ofNat 8 (polyRemainder 0x11D 8 7 (carrylessProduct 8 a b))

theorem reducedProduct_xor (a b c : Nat) :
    reducedProduct a (b ^^^ c) = reducedProduct a b ^^^ reducedProduct a c := by
  rw [reducedProduct, carrylessProduct_xor, polyRemainder_xor, BitVec.ofNat_xor]
  rfl

theorem xor_reducedProduct_two_pow {i : Nat} (hi : i < 8) (a b : Nat) :
    reducedProduct (a ^^^ b) (2 ^ i) = reducedProduct a (2 ^ i) ^^^ reducedProduct b (2 ^ i) := by
  simp only [reducedProduct, carrylessProduct_two_pow, if_pos hi, Nat.shiftLeft_xor_distrib,
    polyRemainder_xor, BitVec.ofNat_xor]

/-- The two products agree on the powers of x below 8. -/
theorem gfMul_ofNat_two_pow : ∀ i < 8, ∀ j < 8,
    gfMul (BitVec.ofNat 8 (2 ^ j)) (BitVec.ofNat 8 (2 ^ i)) = reducedProduct (2 ^ j) (2 ^ i) := by
  decide +kernel

/-- ⊗ is linear in each factor, and so is the product of R91; so they agree if they agree on the powers of x
below 8. -/
theorem gfMul_eq_reducedProduct (a b : Byte) : gfMul a b = reducedProduct a.toNat b.toNat := by
  have hright : ∀ i < 8, gfMul a (BitVec.ofNat 8 (2 ^ i)) = reducedProduct a.toNat (2 ^ i) := by
    intro i hi
    have hleft := eq_of_xor_linear (f := fun x => gfMul (BitVec.ofNat 8 x) (BitVec.ofNat 8 (2 ^ i)))
      (g := fun x => reducedProduct x (2 ^ i))
      (fun x y => by rw [BitVec.ofNat_xor, xor_gfMul]) (xor_reducedProduct_two_pow hi)
      (gfMul_ofNat_two_pow i hi) a.toNat a.isLt
    simpa using hleft
  have hboth := eq_of_xor_linear (f := fun y => gfMul a (BitVec.ofNat 8 y))
    (fun x y => by rw [BitVec.ofNat_xor, gfMul_xor]) (reducedProduct_xor a.toNat) hright b.toNat b.isLt
  simpa using hboth

/-- Settles O12: the laws of ⊗ come from its logarithms, and with its linearity the product of R91. -/
theorem gfMulIsReducedPolynomialProduct : Obligations.GfMulIsReducedPolynomialProduct := by
  unfold Obligations.GfMulIsReducedPolynomialProduct
  exact ⟨fun _ _ => rfl, gfMul_eq_reducedProduct, gfMul_comm, gfMul_assoc, one_gfMul, gfMul_xor⟩

end Sys2Proof.Machine
end

section
/-! PROOFS. Polynomials over GF(2^8) as lists of coefficients: their values and sums, and that a polynomial
with more roots than its degree is 0. -/

namespace Sys2Proof.Machine

open Sys2Proof

/-! ### Powers -/

/-- The n-th power of x. -/
def gfPow (x : Byte) : Nat → Byte
  | 0 => 1
  | n + 1 => gfMul (gfPow x n) x

@[simp] theorem gfPow_zero (x : Byte) : gfPow x 0 = 1#8 := rfl

theorem gfPow_succ (x : Byte) (n : Nat) : gfPow x (n + 1) = gfMul (gfPow x n) x := rfl

theorem gfPow_gfExp {i : Nat} (hi : i < 255) (n : Nat) : gfPow (gfExp i) n = gfExp (i * n % 255) := by
  induction n with
  | zero => rw [Nat.mul_zero]; rfl
  | succ n ih =>
    rw [gfPow_succ, ih, gfMul_gfExp (Nat.mod_lt _ (by decide)) hi, Nat.mod_add_mod, Nat.mul_succ]

/-- The powers of α repeat after 255 (R93). -/
theorem gfPow_gfExp_255 {i : Nat} (hi : i < 255) : gfPow (gfExp i) 255 = 1#8 := by
  rw [gfPow_gfExp hi, Nat.mul_mod_left]
  rfl

/-! ### Sums of lists -/

@[simp] theorem length_xorLists (a b : List Byte) :
    (xorLists a b).length = min a.length b.length := List.length_zipWith

theorem xorLists_xorLists_comm (a b c d : List Byte) :
    xorLists (xorLists a b) (xorLists c d) = xorLists (xorLists a c) (xorLists b d) := by
  refine List.ext_getElem (by simp; omega) fun i _ _ => ?_
  simp only [xorLists, List.getElem_zipWith]
  ac_rfl

theorem xorLists_self (a : List Byte) : xorLists a a = List.replicate a.length 0#8 := by
  induction a with
  | nil => rfl
  | cons x a ih => exact congrArg₂ List.cons BitVec.xor_self ih

theorem xorLists_append {a b : List Byte} (h : a.length = b.length) (c d : List Byte) :
    xorLists (a ++ c) (b ++ d) = xorLists a b ++ xorLists c d := List.zipWith_append h

theorem eq_of_xorLists_eq_zero {a b : List Byte} (hlen : a.length = b.length)
    (h : ∀ c ∈ xorLists a b, c = 0#8) : a = b := by
  refine List.ext_getElem hlen fun i ha hb => BitVec.xor_eq_zero_iff.1 (h _ ?_)
  exact List.mem_of_getElem (i := i) (h := by simp; omega) List.getElem_zipWith

/-! ### Values -/

@[simp] theorem polyEval_nil (x : Byte) : polyEval [] x = 0#8 := rfl

@[simp] theorem polyEval_singleton (c x : Byte) : polyEval [c] x = c := by
  simp [polyEval]

theorem polyEval_concat (cs : List Byte) (c x : Byte) :
    polyEval (cs ++ [c]) x = gfMul (polyEval cs x) x ^^^ c := List.foldl_concat ..

theorem polyEval_append (cs ds : List Byte) (x : Byte) :
    polyEval (cs ++ ds) x = gfMul (polyEval cs x) (gfPow x ds.length) ^^^ polyEval ds x := by
  induction ds using List.reverseRecOn with
  | nil => simp
  | append_singleton ds d ih =>
    rw [← List.append_assoc, polyEval_concat, polyEval_concat, ih, List.length_append,
      List.length_singleton, gfPow_succ, xor_gfMul, gfMul_assoc, BitVec.xor_assoc]

theorem polyEval_cons (c : Byte) (cs : List Byte) (x : Byte) :
    polyEval (c :: cs) x = gfMul c (gfPow x cs.length) ^^^ polyEval cs x := by
  rw [← List.singleton_append, polyEval_append, polyEval_singleton]

theorem polyEval_replicate_zero (n : Nat) (x : Byte) : polyEval (List.replicate n 0#8) x = 0#8 := by
  induction n with
  | zero => rfl
  | succ n ih => simp [List.replicate_succ, polyEval_cons, ih]

theorem polyEval_xorLists {a b : List Byte} (h : a.length = b.length) (x : Byte) :
    polyEval (xorLists a b) x = polyEval a x ^^^ polyEval b x := by
  induction a generalizing b with
  | nil =>
    cases b with
    | nil => simp [xorLists]
    | cons _ _ => simp at h
  | cons c a ih =>
    cases b with
    | nil => simp at h
    | cons d b =>
      have hl : a.length = b.length := by simpa using h
      have hc : xorLists (c :: a) (d :: b) = (c ^^^ d) :: xorLists a b := rfl
      rw [hc, polyEval_cons, polyEval_cons, polyEval_cons, ih hl, length_xorLists, hl, Nat.min_self,
        xor_gfMul]
      ac_rfl

theorem polyEval_map_gfMul (s : Byte) (cs : List Byte) (x : Byte) :
    polyEval (cs.map (gfMul s)) x = gfMul s (polyEval cs x) := by
  induction cs with
  | nil => simp
  | cons c cs ih =>
    rw [List.map_cons, polyEval_cons, polyEval_cons, ih, List.length_map, gfMul_xor, gfMul_assoc]

/-! ### Roots -/

/-- The quotient of the polynomial a :: cs by x ⊕ r, by Horner's rule. -/
def quotientByRoot (r : Byte) : Byte → List Byte → List Byte
  | _, [] => []
  | a, c :: cs => a :: quotientByRoot r (gfMul a r ^^^ c) cs

theorem length_quotientByRoot (r a : Byte) (cs : List Byte) :
    (quotientByRoot r a cs).length = cs.length := by
  induction cs generalizing a with
  | nil => rfl
  | cons c cs ih => exact congrArg Nat.succ (ih _)

theorem polyEval_cons_cons (a c : Byte) (cs : List Byte) (x : Byte) :
    polyEval (a :: c :: cs) x = polyEval ((gfMul a x ^^^ c) :: cs) x := by
  simp [polyEval]

/-- Division by x ⊕ r leaves the value at r as the remainder. -/
theorem polyEval_quotientByRoot (r a : Byte) (cs : List Byte) (x : Byte) :
    polyEval (a :: cs) x =
      gfMul (polyEval (quotientByRoot r a cs) x) (x ^^^ r) ^^^ polyEval (a :: cs) r := by
  induction cs generalizing a with
  | nil => simp [quotientByRoot]
  | cons c cs ih =>
    have hsplit : gfMul a x ^^^ c = gfMul a (x ^^^ r) ^^^ (gfMul a r ^^^ c) := by
      rw [gfMul_xor, BitVec.xor_assoc, ← BitVec.xor_assoc (gfMul a r), BitVec.xor_self, BitVec.zero_xor]
    have hlead : gfMul (gfMul a (x ^^^ r)) (gfPow x cs.length) =
        gfMul (gfMul a (gfPow x cs.length)) (x ^^^ r) := by
      rw [gfMul_assoc, gfMul_assoc, gfMul_comm (x ^^^ r)]
    calc polyEval (a :: c :: cs) x
        = gfMul (gfMul a (x ^^^ r)) (gfPow x cs.length) ^^^ polyEval ((gfMul a r ^^^ c) :: cs) x := by
          rw [polyEval_cons_cons, polyEval_cons, polyEval_cons, hsplit, xor_gfMul, BitVec.xor_assoc]
      _ = gfMul (polyEval (quotientByRoot r a (c :: cs)) x) (x ^^^ r) ^^^ polyEval (a :: c :: cs) r := by
          rw [ih, hlead, quotientByRoot, polyEval_cons a (quotientByRoot _ _ _), length_quotientByRoot,
            polyEval_cons_cons a, xor_gfMul, BitVec.xor_assoc]

/-- A polynomial with quotient 0 and remainder 0 is 0. -/
theorem eq_zero_of_quotientByRoot {r a : Byte} {cs : List Byte} (hr : polyEval (a :: cs) r = 0#8)
    (hq : ∀ c ∈ quotientByRoot r a cs, c = 0#8) : ∀ c ∈ a :: cs, c = 0#8 := by
  induction cs generalizing a with
  | nil => simpa using hr
  | cons c cs ih =>
    rw [polyEval_cons_cons] at hr
    obtain ⟨rfl, hq⟩ := List.forall_mem_cons.1 hq
    exact List.forall_mem_cons.2 ⟨rfl, by simpa using ih hr hq⟩

/-- A polynomial with at least as many roots as coefficients is 0. -/
theorem eq_zero_of_roots {rs cs : List Byte} (hrs : rs.Nodup) (hlen : cs.length ≤ rs.length)
    (h : ∀ r ∈ rs, polyEval cs r = 0#8) : ∀ c ∈ cs, c = 0#8 := by
  induction rs generalizing cs with
  | nil => simp [List.eq_nil_of_length_eq_zero (Nat.le_zero.1 hlen)]
  | cons r rs ih =>
    cases cs with
    | nil => simp
    | cons a cs =>
      obtain ⟨hnotin, hrs⟩ := List.nodup_cons.1 hrs
      obtain ⟨hr, h⟩ := List.forall_mem_cons.1 h
      refine eq_zero_of_quotientByRoot hr (ih hrs ?_ fun x hx => ?_)
      · rw [length_quotientByRoot]
        exact Nat.le_of_succ_le_succ hlen
      · have hx0 := polyEval_quotientByRoot r a cs x
        rw [hr, h x hx, BitVec.xor_zero] at hx0
        obtain h0 | h0 := gfMul_eq_zero hx0.symm
        · exact h0
        · exact absurd (BitVec.xor_eq_zero_iff.1 h0 ▸ hx) hnotin

end Sys2Proof.Machine
end

section
/-! PROOFS. The Reed-Solomon engine: the roots of the generator polynomial, the ecc as the remainder of R98
and its linearity. -/

namespace Sys2Proof.Machine

open Sys2Proof

/-! ### The generator polynomial -/

/-- R97's loop body is the sum of the shifted polynomial and its multiple by r. -/
theorem mulLinear_eq (p : List Byte) (r : Byte) :
    mulLinear p r = xorLists (0#8 :: p) (p.map (gfMul r) ++ [0#8]) := by
  have hcomm : (fun c => gfMul c r) = gfMul r := funext fun c => gfMul_comm c r
  rw [mulLinear, hcomm]
  rfl

theorem reverse_mulLinear (p : List Byte) (r : Byte) :
    (mulLinear p r).reverse = xorLists (p.reverse ++ [0#8]) (0#8 :: p.reverse.map (gfMul r)) := by
  rw [mulLinear_eq, xorLists, List.reverse_zipWith (by simp)]
  simp [xorLists]

/-- R97's loop body multiplies the value at x by x ⊕ r. -/
theorem polyEval_reverse_mulLinear (p : List Byte) (r x : Byte) :
    polyEval (mulLinear p r).reverse x = gfMul (polyEval p.reverse x) (x ^^^ r) := by
  rw [reverse_mulLinear, polyEval_xorLists (by simp), polyEval_concat, polyEval_cons, zero_gfMul,
    polyEval_map_gfMul, BitVec.zero_xor, BitVec.xor_zero, gfMul_xor, gfMul_comm r]

/-- The roots of the generator are α^0 … α^(n-1) (R96). -/
theorem polyEval_generator {i n : Nat} (h : i < n) :
    polyEval (generator n).reverse (gfExp i) = 0#8 := by
  induction n with
  | zero => omega
  | succ n ih =>
    rw [generator, polyEval_reverse_mulLinear]
    obtain hlt | rfl := Nat.lt_succ_iff_lt_or_eq.1 h
    · rw [ih hlt, zero_gfMul]
    · rw [BitVec.xor_self, gfMul_zero]

/-- The generator is monic: the coefficient of x^n stands last (R96). -/
theorem getElem?_generator (n : Nat) : (generator n)[n]? = some 1#8 := by
  induction n with
  | zero => rfl
  | succ n ih =>
    have hlast : ((generator n).map (gfMul (gfExp n)) ++ [0#8])[n + 1]? = some 0#8 := by
      simp [length_generator]
    rw [generator, mulLinear_eq, xorLists, List.getElem?_zipWith, List.getElem?_cons_succ, ih, hlast]
    rfl

theorem generator_eq (n : Nat) : generator n = (generator n).take n ++ [1#8] := by
  obtain ⟨hn, h1⟩ := List.getElem?_eq_some_iff.1 (getElem?_generator n)
  rw [← h1, List.take_append_getElem, List.take_of_length_le (length_generator n).le]

/-- Settles O13: each pass of R97 multiplies by one more factor x ⊕ α^n and keeps the polynomial monic. -/
theorem generatorHasItsRoots : Obligations.GeneratorHasItsRoots := by
  unfold Obligations.GeneratorHasItsRoots
  exact fun n _ _ => ⟨length_generator n, getElem?_generator n, fun _ => polyEval_generator⟩

/-! ### The taps -/

/-- The taps of R99. -/
def tapsOf (n : Nat) : List Byte := ((generator n).take n).reverse

theorem length_tapsOf (n : Nat) : (tapsOf n).length = n := by simp [tapsOf, length_generator]

theorem reverse_generator (n : Nat) : (generator n).reverse = 1#8 :: tapsOf n := by
  rw [generator_eq, List.reverse_append]
  simp [tapsOf]

/-- At a root of the generator the taps have the value of x^n. -/
theorem polyEval_tapsOf {i n : Nat} (h : i < n) : polyEval (tapsOf n) (gfExp i) = gfPow (gfExp i) n := by
  have hroot := polyEval_generator h
  rw [reverse_generator, polyEval_cons, one_gfMul, length_tapsOf] at hroot
  exact (BitVec.xor_eq_zero_iff.1 hroot).symm

/-! ### The generator of degree 255 -/

/-- The generator of degree 255 has every byte but 0 as a root, and so has x^255 ⊕ 1. -/
theorem tapsOf_255 : tapsOf 255 = List.replicate 254 0#8 ++ [1#8] := by
  have hlen : (tapsOf 255).length = (List.replicate 254 0#8 ++ [1#8]).length := by
    rw [length_tapsOf, List.length_append, List.length_replicate]
    rfl
  have hroots : ((List.range 255).map gfExp).Nodup := by
    refine List.nodup_range.map_on fun i hi j hj hij => ?_
    rw [← gfLog_gfExp i (List.mem_range.1 hi), hij, gfLog_gfExp j (List.mem_range.1 hj)]
  have hcount : (xorLists (tapsOf 255) (List.replicate 254 0#8 ++ [1#8])).length ≤
      ((List.range 255).map gfExp).length := by
    rw [length_xorLists, ← hlen, length_tapsOf, List.length_map, List.length_range]
    rfl
  refine eq_of_xorLists_eq_zero hlen (eq_zero_of_roots hroots hcount fun r hr => ?_)
  obtain ⟨i, hi, rfl⟩ := List.mem_map.1 hr
  have hi := List.mem_range.1 hi
  rw [polyEval_xorLists hlen, polyEval_tapsOf hi, gfPow_gfExp_255 hi, polyEval_concat,
    polyEval_replicate_zero, zero_gfMul]
  decide

theorem generator_255 : generator 255 = 1#8 :: (List.replicate 254 0#8 ++ [1#8]) := by
  rw [← List.reverse_inj, reverse_generator, tapsOf_255, List.reverse_cons, List.reverse_append,
    List.reverse_singleton, List.reverse_replicate]
  rfl

/-! ### The feedback register -/

/-- A pass of R99 is the sum of the shifted register and a multiple of the taps. -/
theorem feedback_eq (taps reg : List Byte) (d : Byte) :
    feedback taps reg d =
      xorLists (reg.tail ++ [0#8]) (taps.map (gfMul (d ^^^ reg.headD 0#8))) := by
  rw [feedback, xorLists, List.zipWith_map_right]
  rfl

theorem rsEncode_eq (d : List Byte) (n : Nat) :
    rsEncode d n = d.foldl (feedback (tapsOf n)) (List.replicate n 0#8) := rfl

theorem rsEncode_concat (ds : List Byte) (d : Byte) (n : Nat) :
    rsEncode (ds ++ [d]) n = feedback (tapsOf n) (rsEncode ds n) d := List.foldl_concat ..

/-! ### The ecc as a remainder -/

/-- At a root of the generator, a pass of the feedback register multiplies the value of the register by x
and adds the codeword's multiple of x^n. -/
theorem polyEval_feedback {i n : Nat} (h : i < n) {reg : List Byte} (hreg : reg.length = n) (d : Byte) :
    polyEval (feedback (tapsOf n) reg d) (gfExp i) =
      gfMul (polyEval reg (gfExp i)) (gfExp i) ^^^ gfMul d (gfPow (gfExp i) n) := by
  cases reg with
  | nil => simp at hreg; omega
  | cons c reg =>
    have hlen : (reg ++ [0#8]).length = ((tapsOf n).map (gfMul (d ^^^ c))).length := by
      simpa [length_tapsOf] using hreg
    have hlead : gfMul (gfMul c (gfPow (gfExp i) reg.length)) (gfExp i) = gfMul c (gfPow (gfExp i) n) := by
      rw [gfMul_assoc, ← gfPow_succ, ← hreg, List.length_cons]
    rw [feedback_eq, List.tail_cons, List.headD_cons, polyEval_xorLists hlen, polyEval_concat,
      polyEval_map_gfMul, polyEval_tapsOf h, polyEval_cons, xor_gfMul, xor_gfMul, hlead, BitVec.xor_zero]
    ac_rfl

/-- At a root of the generator the ecc has the value of the data times x^n (R98). -/
theorem polyEval_rsEncode {i n : Nat} (h : i < n) (ds : List Byte) :
    polyEval (rsEncode ds n) (gfExp i) = gfMul (polyEval ds (gfExp i)) (gfPow (gfExp i) n) := by
  induction ds using List.reverseRecOn with
  | nil => simp [rsEncode_eq, polyEval_replicate_zero]
  | append_singleton ds d ih =>
    rw [rsEncode_concat, polyEval_feedback h (length_rsEncode ds n), ih, polyEval_concat, xor_gfMul,
      gfMul_assoc, gfMul_assoc, gfMul_comm (gfExp i)]

/-- Settles O16: at a root the data, shifted by x^n, and the ecc have the same value, so they add up to 0. -/
theorem codewordHasZeroSyndrome : Obligations.CodewordHasZeroSyndrome := by
  unfold Obligations.CodewordHasZeroSyndrome
  intro d n _ _ i hi
  rw [polyEval_append, length_rsEncode, polyEval_rsEncode hi, BitVec.xor_self]

/-! ### Linearity -/

/-- A pass of the feedback register is linear in the register and the codeword together. -/
theorem feedback_xorLists (taps : List Byte) {reg reg' : List Byte} (h : reg.length = reg'.length)
    (d d' : Byte) :
    feedback taps (xorLists reg reg') (d ^^^ d') =
      xorLists (feedback taps reg d) (feedback taps reg' d') := by
  have hregs : (xorLists reg reg').tail ++ [0#8] = xorLists (reg.tail ++ [0#8]) (reg'.tail ++ [0#8]) := by
    rw [xorLists_append (by simp [h])]
    simp [xorLists]
  have hhead : (xorLists reg reg').headD 0#8 = reg.headD 0#8 ^^^ reg'.headD 0#8 := by
    cases reg with
    | nil =>
      obtain rfl : reg' = [] := List.eq_nil_of_length_eq_zero h.symm
      rfl
    | cons c reg =>
      cases reg' with
      | nil => simp at h
      | cons c' reg' => rfl
  have htaps : taps.map (gfMul (d ^^^ d' ^^^ (reg.headD 0#8 ^^^ reg'.headD 0#8))) =
      xorLists (taps.map (gfMul (d ^^^ reg.headD 0#8))) (taps.map (gfMul (d' ^^^ reg'.headD 0#8))) := by
    rw [xorLists, List.zipWith_map, List.zipWith_self]
    refine List.map_congr_left fun t _ => ?_
    rw [← xor_gfMul]
    congr 1
    ac_rfl
  rw [feedback_eq, feedback_eq, feedback_eq, hregs, hhead, htaps, xorLists_xorLists_comm]

/-- The ecc is linear in the data (R101 (b)). -/
theorem rsEncode_xorLists {ds ds' : List Byte} (h : ds.length = ds'.length) (n : Nat) :
    rsEncode (xorLists ds ds') n = xorLists (rsEncode ds n) (rsEncode ds' n) := by
  induction ds using List.reverseRecOn generalizing ds' with
  | nil =>
    obtain rfl : ds' = [] := List.eq_nil_of_length_eq_zero h.symm
    simp [rsEncode_eq, xorLists]
  | append_singleton ds d ih =>
    obtain rfl | ⟨es, e, rfl⟩ := List.eq_nil_or_concat' ds'
    · simp at h
    · have hlen : ds.length = es.length := by simpa using h
      have hlast : xorLists (ds ++ [d]) (es ++ [e]) = xorLists ds es ++ [d ^^^ e] :=
        xorLists_append hlen [d] [e]
      rw [hlast, rsEncode_concat, rsEncode_concat, rsEncode_concat, ih hlen,
        feedback_xorLists _ (by rw [length_rsEncode, length_rsEncode])]

/-- Settles O17: all-zero data is a block plus itself, so its ecc is an ecc plus itself, and a leading zero
leaves the register at zero. -/
theorem eccIsLinear : Obligations.EccIsLinear := by
  unfold Obligations.EccIsLinear
  have hzero (k n : Nat) : rsEncode (List.replicate k 0#8) n = List.replicate n 0#8 := by
    have hz : List.replicate k 0#8 = xorLists (List.replicate k 0#8) (List.replicate k 0#8) := by
      rw [xorLists_self, List.length_replicate]
    rw [hz, rsEncode_xorLists rfl, xorLists_self, length_rsEncode]
  refine ⟨fun d d' n h => rsEncode_xorLists h n, hzero, fun d n => ?_⟩
  exact congrArg (d.foldl (feedback (tapsOf n))) (hzero 1 n)

end Sys2Proof.Machine
end

section
/-! PROOFS. GEN_POLY and RS_ENCODE: the write of the generator into GEN_BUF and of the ecc behind the data in
BLK_BUF, and the generators of degree 1 and 255. -/

namespace Sys2Proof.Machine

open Sys2Proof

/-! ### Writes of a range -/

theorem Memory.read_writeRange_add (m : Memory) (base : Nat) (bs : List Byte) {j : Nat}
    (h : j < bs.length) : (m.writeRange base bs).read (base + j) = bs[j]? := by
  rw [Memory.read_writeRange_inside m base bs h, List.getElem?_eq_getElem h]

/-- The frame of a command that writes one range of the storage. -/
theorem bytesKeptBut_writeRange {s t : State} {base n : Nat} {bs : List Byte} (hlen : bs.length = n)
    (h : t.mem = s.mem.writeRange base bs) : bytesKeptBut (within base n) s t := by
  intro a ha
  unfold within at ha
  rw [h, Memory.read_writeRange_outside s.mem base bs (by omega)]

/-! ### GEN_POLY -/

/-- The word of a command of format G, its fields side by side (R57). -/
theorem append_formatG (op : BitVec 8) (n : Byte) : op ++ 0#16 ++ n = op ++ (0#16 ++ n) := by
  simp only [BitVec.append_assoc, BitVec.cast_eq]

theorem execGenPoly_of_ne_zero {n : Byte} (h : n ≠ 0#8) (s : State) :
    execGenPoly n s =
      .next ({ s with
        mem := s.mem.writeRange genBase (generator n.toNat)
        genDegree := BitVec.ofNat 9 n.toNat } : State).complete := if_neg h

/-- The frame of GEN_POLY (R102). -/
theorem regsKept_genPoly (s : State) (m : Memory) (degree : BitVec 9) :
    regsKept [.status, .errcode, .genDegree] s
      ({ s with mem := m, genDegree := degree } : State).complete := by
  intro r hr
  cases r with
  | status | errcode | genDegree => simp at hr
  | _ => rfl

/-- Settles O14: the range written holds the generator, whose last coefficient is 1, and nothing else is
written. -/
theorem genPolyWritesGenerator : Obligations.GenPolyWritesGenerator := by
  unfold Obligations.GenPolyWritesGenerator
  refine ⟨by decide, generator_255, fun n s => ⟨?_, fun hn => ?_, fun hn => if_pos hn⟩⟩
  · rw [append_formatG]
    exact encodedAs_encode (.genPoly n)
  · have hlen := length_generator n.toNat
    have hread (j : Nat) (hj : j ≤ n.toNat) :
        (s.mem.writeRange genBase (generator n.toNat)).read (genBase + j) = (generator n.toNat)[j]? :=
      Memory.read_writeRange_add s.mem genBase _ (by omega)
    have hdegree : (BitVec.ofNat 9 n.toNat).toNat = n.toNat := by
      rw [BitVec.toNat_ofNat]
      omega
    exact ⟨_, execGenPoly_of_ne_zero hn s, completedFrom_complete _, ⟨rfl, rfl⟩, hread,
      (hread _ le_rfl).trans (getElem?_generator _), hdegree, bytesKeptBut_writeRange hlen rfl, rfl,
      regsKept_genPoly s _ _, ⟨rfl, rfl, rfl, rfl⟩⟩

/-! ### RS_ENCODE -/

/-- The word of a command of format K, its fields side by side (R57). -/
theorem append_formatK (op : BitVec 8) (k n : Byte) : op ++ 0#8 ++ k ++ n = op ++ (0#8 ++ k ++ n) := by
  simp only [BitVec.append_assoc, BitVec.cast_eq]

/-- The block sizes that RS_ENCODE takes (R103). -/
theorem legalBlock_iff {k n : Byte} :
    legalBlock k n = true ↔ 1 ≤ n.toNat ∧ k.toNat + n.toNat ≤ 255 := by
  rw [legalBlock, Bool.and_eq_true, decide_eq_true_eq, decide_eq_true_eq]
  rfl

section
variable {k n : Byte} {s : State}

theorem execRsEncode_of_illegal (h : n.toNat = 0 ∨ 255 < k.toNat + n.toNat) :
    execRsEncode k n s = .next (s.fail .invalidArgument) := by
  have hlegal : ¬ legalBlock k n = true := by
    rw [legalBlock_iff]
    omega
  rw [execRsEncode, Bool.eq_false_of_not_eq_true hlegal]
  rfl

theorem execRsEncode_of_unwritten (hn : 1 ≤ n.toNat) (hk : k.toNat + n.toNat ≤ 255)
    (h : ∃ i < k.toNat, s.mem.read (blkBase + i) = none) :
    execRsEncode k n s = .fault .unwrittenRead := by
  obtain ⟨i, hi, hnone⟩ := h
  have hread : s.mem.readRange blkBase k.toNat = none := by
    rw [← Option.not_isSome_iff_eq_none, readRange_isSome_iff]
    exact fun hall => by simpa [hnone] using hall i hi
  rw [execRsEncode, legalBlock_iff.2 ⟨hn, hk⟩, hread]
  rfl

theorem execRsEncode_of_written {d : List Byte} (hn : 1 ≤ n.toNat) (hk : k.toNat + n.toNat ≤ 255)
    (hd : s.mem.readRange blkBase k.toNat = some d) :
    execRsEncode k n s =
      .next ({ s with mem := s.mem.writeRange (blkBase + k.toNat) (rsEncode d n.toNat) } :
        State).complete := by
  rw [execRsEncode, legalBlock_iff.2 ⟨hn, hk⟩, hd]
  rfl

end

/-- The frame of a command that writes the storage alone (R103). -/
theorem regsKept_mem (s : State) (m : Memory) :
    regsKept [.status, .errcode] s ({ s with mem := m } : State).complete :=
  regsKept_complete { s with mem := m }

/-- Settles O15: with the data written the range behind it takes the ecc, and nothing else is written; each
other ending is the first check that fails. -/
theorem rsEncodeWritesEcc : Obligations.RsEncodeWritesEcc := by
  unfold Obligations.RsEncodeWritesEcc
  intro k n s
  refine ⟨?_, fun d hn hk hlen hd => ?_, execRsEncode_of_illegal, execRsEncode_of_unwritten⟩
  · rw [append_formatK]
    exact encodedAs_encode (.rsEncode k n)
  · have hecc := length_rsEncode d n.toNat
    exact ⟨_, execRsEncode_of_written hn hk (readRange_eq_some_iff.2 ⟨hlen, hd⟩),
      completedFrom_complete _, ⟨rfl, rfl⟩, hecc,
      fun j hj => Memory.read_writeRange_add s.mem _ _ (by omega),
      bytesKeptBut_writeRange hecc rfl, rfl, regsKept_mem s _, ⟨rfl, rfl, rfl, rfl⟩⟩

end Sys2Proof.Machine
end

section
/-! PROOFS. The order of the interleaved stream (44_codeword_assembler.md section 2): each position names a
codeword of a block, and each codeword of a block stands at exactly one position. -/

namespace Sys2Proof.Machine

open Sys2Proof

/-! ### The laws of an EC Spec -/

/-- What the order needs of an EC Spec: its counts add up, a block of group 2 is one codeword longer, and
the stream fits its buffer (R72). -/
structure SpecRegs.Consistent (x : SpecRegs) : Prop where
  dataCw_eq : x.dataCw.toNat =
    x.g1Count.toNat * x.g1Data.toNat + x.g2Count.toNat * x.g2Data.toNat
  eccCw_eq : x.eccCw.toNat = x.blocks * x.eccPerBlock.toNat
  totalCw_eq : x.totalCw.toNat = x.dataCw.toNat + x.eccCw.toNat
  g1Count_pos : 1 ≤ x.g1Count.toNat
  g2Data_eq : 0 < x.g2Count.toNat → x.g2Data.toNat = x.g1Data.toNat + 1
  totalCw_le : x.totalCw.toNat ≤ 3706

section
variable {v l : Nat} (h1 : 1 ≤ v) (h40 : v ≤ 40) (hl : l < 4)
include h1 h40 hl

/-- The codeword counts of a legal EC Spec are those of its row, whole (R81). -/
theorem specRegs_counts : (SpecRegs.of v l).totalCw.toNat = (capacityRow v l).total ∧
    (SpecRegs.of v l).dataCw.toNat = (capacityRow v l).data ∧
    (SpecRegs.of v l).eccCw.toNat = (capacityRow v l).ecc := by
  obtain ⟨-, -, -, -, htotal, hdata, hecc, -⟩ :=
    specLoaded_of_spec (t := State.reset.loadSpec v l) h1 h40 hl rfl rfl
  exact ⟨htotal, hdata, hecc⟩

theorem consistent_specRegs : (SpecRegs.of v l).Consistent := by
  obtain ⟨-, -, -, -, htotal, hdata, hecc, -, hg1, hd1, hg2, hd2, he⟩ :=
    specLoaded_of_spec (t := State.reset.loadSpec v l) h1 h40 hl rfl rfl
  obtain ⟨hdata', hecc', htotal', hpos, hlong, -, -, -, hmax, -⟩ := capacityRowsAddUp v h1 h40 l hl
  simp only [State.loadSpec_spec] at htotal hdata hecc hg1 hd1 hg2 hd2 he
  constructor
  · rw [hdata, hg1, hd1, hg2, hd2, hdata']
  · rw [hecc, SpecRegs.blocks, hg1, hg2, he, hecc']
  · rw [htotal, hdata, hecc, htotal']
  · rwa [hg1]
  · rwa [hg2, hd2, hd1]
  · rwa [htotal]

end

/-! ### Blocks (R104) -/

namespace SpecRegs

section
variable {x : SpecRegs} (hx : x.Consistent)
include hx

theorem Consistent.blocks_pos : 0 < x.blocks := by
  have := hx.g1Count_pos
  unfold blocks
  omega

theorem Consistent.g2Count_lt : x.g2Count.toNat < x.blocks := by
  have := hx.g1Count_pos
  unfold blocks
  omega

/-- Every block has D1 data codewords, and those of group 2 one more. -/
theorem Consistent.dataCw_eq_columns :
    x.dataCw.toNat = x.blocks * x.g1Data.toNat + x.g2Count.toNat := by
  rw [hx.dataCw_eq, blocks]
  rcases Nat.eq_zero_or_pos x.g2Count.toNat with h0 | hpos
  · rw [h0]
    ring
  · rw [hx.g2Data_eq hpos]
    ring

theorem Consistent.blockSize_eq {b : Nat} (hb : b < x.blocks) :
    x.blockSize b = if b < x.g1Count.toNat then x.g1Data.toNat else x.g1Data.toNat + 1 := by
  unfold blocks at hb
  unfold blockSize
  split_ifs with hg
  · rfl
  · exact hx.g2Data_eq (by omega)

/-- A block ends inside the data. -/
theorem Consistent.blockOffset_add_blockSize_le {b : Nat} (hb : b < x.blocks) :
    x.blockOffset b + x.blockSize b ≤ x.dataCw.toNat := by
  rw [hx.dataCw_eq, blockOffset, blockSize]
  unfold blocks at hb
  split_ifs with hg
  · calc b * x.g1Data.toNat + x.g1Data.toNat = (b + 1) * x.g1Data.toNat := by ring
      _ ≤ x.g1Count.toNat * x.g1Data.toNat := Nat.mul_le_mul_right _ hg
      _ ≤ _ := Nat.le_add_right _ _
  · have hle := Nat.mul_le_mul_right x.g2Data.toNat
      (show b - x.g1Count.toNat + 1 ≤ x.g2Count.toNat by omega)
    rw [Nat.add_mul, Nat.one_mul] at hle
    omega

/-- Every data codeword belongs to a block. -/
theorem Consistent.exists_block {i : Nat} (hi : i < x.dataCw.toNat) :
    ∃ b < x.blocks, ∃ c < x.blockSize b, x.blockOffset b + c = i := by
  rw [hx.dataCw_eq] at hi
  unfold blocks blockOffset blockSize
  rcases Nat.lt_or_ge i (x.g1Count.toNat * x.g1Data.toNat) with hlt | hle
  · have hb := Nat.div_lt_of_lt_mul (Nat.mul_comm _ _ ▸ hlt)
    have hd : 0 < x.g1Data.toNat := Nat.pos_of_mul_pos_left (Nat.zero_lt_of_lt hlt)
    refine ⟨i / x.g1Data.toNat, by omega, i % x.g1Data.toNat, ?_, ?_⟩
    · rw [if_pos hb]
      exact Nat.mod_lt _ hd
    · rw [if_pos hb]
      exact Nat.div_add_mod' _ _
  · obtain ⟨k, rfl⟩ := Nat.exists_eq_add_of_le hle
    have hlt := Nat.lt_of_add_lt_add_left hi
    have hb := Nat.div_lt_of_lt_mul (Nat.mul_comm _ _ ▸ hlt)
    have hd : 0 < x.g2Data.toNat := Nat.pos_of_mul_pos_left (Nat.zero_lt_of_lt hlt)
    have hge : ¬ x.g1Count.toNat + k / x.g2Data.toNat < x.g1Count.toNat :=
      Nat.not_lt.2 (Nat.le_add_right _ _)
    refine ⟨x.g1Count.toNat + k / x.g2Data.toNat, by omega, k % x.g2Data.toNat, ?_, ?_⟩
    · rw [if_neg hge]
      exact Nat.mod_lt _ hd
    · rw [if_neg hge, Nat.add_sub_cancel_left, Nat.add_assoc, Nat.div_add_mod']

/-- An ecc codeword lies inside the ecc part (R104). -/
theorem Consistent.ecc_index_lt {b j : Nat} (hb : b < x.blocks) (hj : j < x.eccPerBlock.toNat) :
    b * x.eccPerBlock.toNat + j < x.eccCw.toNat := by
  have hrow := Nat.mul_le_mul_right x.eccPerBlock.toNat hb
  rw [Nat.succ_mul, ← hx.eccCw_eq] at hrow
  omega

end

/-! ### Positions (R106) -/

/-- The block whose data codeword stands at position p (R106). -/
def codewordBlock (x : SpecRegs) (p : Nat) : Nat :=
  if x.g1Data.toNat ≤ p / x.blocks then p % x.blocks + x.g1Count.toNat else p % x.blocks

theorem codewordAddr_of_lt {x : SpecRegs} {p : Nat} (hp : p < x.dataCw.toNat) :
    x.codewordAddr p = dataBase + (x.blockOffset (x.codewordBlock p) + p / x.blocks) := if_pos hp

theorem codewordAddr_dataCw_add (x : SpecRegs) (q : Nat) :
    x.codewordAddr (x.dataCw.toNat + q) =
      eccBase + ((q % x.blocks) * x.eccPerBlock.toNat + q / x.blocks) := by
  rw [codewordAddr, if_neg (by omega), Nat.add_sub_cancel_left]

section
variable {x : SpecRegs} (hx : x.Consistent)
include hx

/-- A data position names a codeword inside a block. -/
theorem Consistent.codewordBlock_lt {p : Nat} (hp : p < x.dataCw.toNat) :
    x.codewordBlock p < x.blocks ∧ p / x.blocks < x.blockSize (x.codewordBlock p) := by
  have hmod := Nat.mod_lt p hx.blocks_pos
  have hdm := Nat.div_add_mod p x.blocks
  have hblocks : x.blocks = x.g1Count.toNat + x.g2Count.toNat := rfl
  rw [hx.dataCw_eq_columns] at hp
  have hcol : p / x.blocks ≤ x.g1Data.toNat := by
    have := hx.g2Count_lt
    rw [← Nat.lt_succ_iff, Nat.div_lt_iff_lt_mul hx.blocks_pos, Nat.mul_comm, Nat.mul_succ]
    omega
  have hlt : x.codewordBlock p < x.blocks := by
    unfold codewordBlock
    split_ifs with h
    · rw [Nat.le_antisymm hcol h] at hdm
      omega
    · exact hmod
  refine ⟨hlt, ?_⟩
  rw [hx.blockSize_eq hlt]
  unfold codewordBlock
  split_ifs <;> omega

/-- Columns of B positions each: the k-th position of column c. -/
theorem Consistent.div_mod_position {c k : Nat} (hk : k < x.blocks) :
    (x.blocks * c + k) / x.blocks = c ∧ (x.blocks * c + k) % x.blocks = k := by
  rw [Nat.mul_add_div hx.blocks_pos, Nat.div_eq_of_lt hk, Nat.mul_add_mod,
    Nat.mod_eq_of_lt hk]
  exact ⟨rfl, rfl⟩

/-- Column by column: the blocks of both groups while they last, then those of group 2 alone. -/
theorem Consistent.exists_data_position {b c : Nat} (hb : b < x.blocks) (hc : c < x.blockSize b) :
    ∃ p < x.dataCw.toNat, x.codewordAddr p = dataBase + (x.blockOffset b + c) := by
  rw [hx.blockSize_eq hb] at hc
  have hblocks : x.blocks = x.g1Count.toNat + x.g2Count.toNat := rfl
  obtain ⟨k, hk, hlt, hblock⟩ : ∃ k < x.blocks, x.blocks * c + k < x.dataCw.toNat ∧
      (if x.g1Data.toNat ≤ c then k + x.g1Count.toNat else k) = b := by
    rw [hx.dataCw_eq_columns]
    rcases Nat.lt_or_ge c x.g1Data.toNat with hlt | hge
    · have hcol := Nat.mul_le_mul_left x.blocks hlt
      rw [Nat.mul_succ] at hcol
      exact ⟨b, hb, by omega, if_neg (by omega)⟩
    · obtain ⟨hg, rfl⟩ : x.g1Count.toNat ≤ b ∧ c = x.g1Data.toNat := by
        split_ifs at hc <;> omega
      exact ⟨b - x.g1Count.toNat, by omega, by omega, by rw [if_pos hge]; omega⟩
  obtain ⟨hdiv, hmod⟩ := hx.div_mod_position hk (c := c)
  exact ⟨x.blocks * c + k, hlt, by rw [codewordAddr_of_lt hlt, codewordBlock, hdiv, hmod, hblock]⟩

/-- The ecc codewords follow the data, column by column. -/
theorem Consistent.exists_ecc_position {b j : Nat} (hb : b < x.blocks) (hj : j < x.eccPerBlock.toNat) :
    ∃ p < x.totalCw.toNat, x.codewordAddr p = eccBase + (b * x.eccPerBlock.toNat + j) := by
  have hcol := Nat.mul_le_mul_left x.blocks hj
  rw [Nat.mul_succ, ← hx.eccCw_eq] at hcol
  obtain ⟨hdiv, hmod⟩ := hx.div_mod_position hb (c := j)
  have := hx.totalCw_eq
  exact ⟨x.dataCw.toNat + (x.blocks * j + b), by omega, by rw [codewordAddr_dataCw_add, hdiv, hmod]⟩

/-- R107 (a): every position names a codeword of DATA_BUF or ECC_BUF. -/
theorem Consistent.codewordAddr_range {p : Nat} (hp : p < x.totalCw.toNat) :
    within dataBase x.dataCw.toNat (x.codewordAddr p) ∨
      within eccBase x.eccCw.toNat (x.codewordAddr p) := by
  rcases Nat.lt_or_ge p x.dataCw.toNat with hlt | hge
  · left
    obtain ⟨hb, hc⟩ := hx.codewordBlock_lt hlt
    have hin := Nat.lt_of_lt_of_le (Nat.add_lt_add_left hc _) (hx.blockOffset_add_blockSize_le hb)
    rw [codewordAddr_of_lt hlt]
    exact ⟨Nat.le_add_right _ _, Nat.add_lt_add_left hin _⟩
  · right
    obtain ⟨q, rfl⟩ := Nat.exists_eq_add_of_le hge
    have hq : q / x.blocks < x.eccPerBlock.toNat := by
      refine Nat.div_lt_of_lt_mul ?_
      rw [← hx.eccCw_eq]
      have := hx.totalCw_eq
      omega
    have hin := hx.ecc_index_lt (Nat.mod_lt q hx.blocks_pos) hq
    rw [codewordAddr_dataCw_add]
    exact ⟨Nat.le_add_right _ _, Nat.add_lt_add_left hin _⟩

/-- R107 (a): the data part is reached. -/
theorem Consistent.exists_position_of_data {i : Nat} (hi : i < x.dataCw.toNat) :
    ∃ p < x.totalCw.toNat, x.codewordAddr p = dataBase + i := by
  obtain ⟨b, hb, c, hc, rfl⟩ := hx.exists_block hi
  obtain ⟨p, hp, haddr⟩ := hx.exists_data_position hb hc
  exact ⟨p, hx.totalCw_eq ▸ Nat.lt_add_right _ hp, haddr⟩

/-- R107 (a): the ecc part is reached. -/
theorem Consistent.exists_position_of_ecc {i : Nat} (hi : i < x.eccCw.toNat) :
    ∃ p < x.totalCw.toNat, x.codewordAddr p = eccBase + i := by
  rw [hx.eccCw_eq, Nat.mul_comm] at hi
  have he : 0 < x.eccPerBlock.toNat := Nat.pos_of_mul_pos_right (Nat.zero_lt_of_lt hi)
  obtain ⟨p, hp, haddr⟩ := hx.exists_ecc_position (Nat.div_lt_of_lt_mul hi) (Nat.mod_lt i he)
  exact ⟨p, hp, by rw [haddr, Nat.div_add_mod']⟩

end

/-- The addresses of the data codewords and of the ecc codewords. -/
def codewordAddrs (x : SpecRegs) : Finset Nat :=
  Finset.Ico dataBase (dataBase + x.dataCw.toNat) ∪ Finset.Ico eccBase (eccBase + x.eccCw.toNat)

section
variable {x : SpecRegs} (hx : x.Consistent)
include hx

theorem Consistent.card_codewordAddrs : x.codewordAddrs.card = x.totalCw.toNat := by
  have hdisj : Disjoint (Finset.Ico dataBase (dataBase + x.dataCw.toNat))
      (Finset.Ico eccBase (eccBase + x.eccCw.toNat)) := by
    have := hx.totalCw_eq
    have := hx.totalCw_le
    refine (Finset.Ico_disjoint_Ico_consecutive dataBase eccBase _).mono_left
      (Finset.Ico_subset_Ico_right ?_)
    unfold dataBase eccBase
    omega
  rw [codewordAddrs, Finset.card_union_of_disjoint hdisj, Nat.card_Ico, Nat.card_Ico, hx.totalCw_eq]
  omega

/-- R107 (a): the T positions reach T addresses, so no two of them name the same one. -/
theorem Consistent.codewordAddr_inj {p q : Nat} (hp : p < x.totalCw.toNat) (hq : q < x.totalCw.toNat)
    (h : x.codewordAddr p = x.codewordAddr q) : p = q := by
  have hmaps : Set.MapsTo x.codewordAddr (Finset.range x.totalCw.toNat) x.codewordAddrs := by
    intro p hp
    simpa [codewordAddrs, within] using hx.codewordAddr_range (Finset.mem_range.1 hp)
  have hsurj : Set.SurjOn x.codewordAddr (Finset.range x.totalCw.toNat) x.codewordAddrs := by
    intro a ha
    rw [Finset.mem_coe, codewordAddrs, Finset.mem_union, Finset.mem_Ico, Finset.mem_Ico] at ha
    obtain ⟨p, hp, rfl⟩ : ∃ p < x.totalCw.toNat, x.codewordAddr p = a := by
      rcases ha with ⟨hle, hlt⟩ | ⟨hle, hlt⟩
      · obtain ⟨i, rfl⟩ := Nat.exists_eq_add_of_le hle
        exact hx.exists_position_of_data (Nat.lt_of_add_lt_add_left hlt)
      · obtain ⟨i, rfl⟩ := Nat.exists_eq_add_of_le hle
        exact hx.exists_position_of_ecc (Nat.lt_of_add_lt_add_left hlt)
    exact ⟨p, Finset.mem_coe.2 (Finset.mem_range.2 hp), rfl⟩
  have hcard : (Finset.range x.totalCw.toNat).card ≤ x.codewordAddrs.card := by
    rw [hx.card_codewordAddrs, Finset.card_range]
  exact Finset.injOn_of_surjOn_of_card_le _ hmaps hsurj hcard (by simpa using hp) (by simpa using hq) h

end

end SpecRegs

/-- Settles O18: the order reaches every codeword of both buffers, and there are as many as positions. -/
theorem streamOrderIsBijective : Obligations.StreamOrderIsBijective := by
  unfold Obligations.StreamOrderIsBijective
  intro v l h1 h40 hl
  have hx := consistent_specRegs h1 h40 hl
  obtain ⟨htotal, hdata, hecc⟩ := specRegs_counts h1 h40 hl
  dsimp only
  rw [← htotal, ← hdata, ← hecc]
  exact ⟨fun _ => hx.codewordAddr_range, fun _ hp _ => hx.codewordAddr_inj hp,
    fun _ => hx.exists_position_of_data, fun _ => hx.exists_position_of_ecc⟩

end Sys2Proof.Machine
end

section
/-! PROOFS. ASSEMBLE and the codeword cursor (44_codeword_assembler.md): what ASSEMBLE needs written, what it
writes, and what the cursor yields then. -/

namespace Sys2Proof.Machine

open Sys2Proof

/-! ### The ecc codewords of every block (R105, R108) -/

/-- Place j of list b in the concatenation of lists of one length. -/
theorem getElem?_flatten_of_length {α : Type} {ls : List (List α)} {e : Nat}
    (h : ∀ l ∈ ls, l.length = e) (b : Nat) {j : Nat} (hj : j < e) :
    ls.flatten[b * e + j]? = ls[b]?.bind (·[j]?) := by
  induction ls generalizing b with
  | nil => rfl
  | cons l ls ih =>
    have hl := h l List.mem_cons_self
    rw [List.flatten_cons]
    cases b with
    | zero =>
      rw [Nat.zero_mul, Nat.zero_add, List.getElem?_append_left (hl ▸ hj)]
      rfl
    | succ b =>
      rw [show (b + 1) * e + j = l.length + (b * e + j) by rw [hl]; ring,
        List.getElem?_append_right (Nat.le_add_right _ _), Nat.add_sub_cancel_left,
        ih fun l hl => h l (List.mem_cons_of_mem _ hl)]
      rfl

/-- ECC_BUF is block-major (R104). -/
theorem getElem?_of_allEcc {x : SpecRegs} {m : Memory} {ecc ys : List Byte} {b j : Nat}
    (h : allEcc x m = some ecc) (hb : b < x.blocks) (hys : blockEcc x m b = some ys)
    (hj : j < x.eccPerBlock.toNat) : ecc[b * x.eccPerBlock.toNat + j]? = ys[j]? := by
  obtain ⟨yss, hyss, rfl⟩ := Option.map_eq_some_iff.1 h
  rw [allSome_eq_some_iff] at hyss
  have hlen : ∀ l ∈ yss, l.length = x.eccPerBlock.toNat := by
    intro l hl
    have hmem : some l ∈ (List.range x.blocks).map (blockEcc x m) := hyss ▸ List.mem_map_of_mem hl
    obtain ⟨c, -, hc⟩ := List.mem_map.1 hmem
    exact length_of_blockEcc hc
  have hblock : yss[b]? = some ys := by
    have hb' := congrArg (fun l => l[b]?) hyss
    simpa [hb, hys] using hb'.symm
  rw [getElem?_flatten_of_length hlen b hj, hblock]
  rfl

theorem blockEcc_isSome_iff {x : SpecRegs} {m : Memory} {b : Nat} :
    (blockEcc x m b).isSome ↔
      ∀ c < x.blockSize b, (m.read (dataBase + x.blockOffset b + c)).isSome := by
  rw [blockEcc, Option.isSome_map, readRange_isSome_iff]

/-- ASSEMBLE reads each data codeword and no other byte for the ecc (R108). -/
theorem allEcc_isSome_iff {x : SpecRegs} (hx : x.Consistent) {m : Memory} :
    (allEcc x m).isSome ↔ ∀ i < x.dataCw.toNat, (m.read (dataBase + i)).isSome := by
  rw [allEcc, Option.isSome_map, allSome_isSome_iff]
  simp only [List.mem_map, List.mem_range, forall_exists_index, and_imp, forall_apply_eq_imp_iff₂,
    blockEcc_isSome_iff, Nat.add_assoc]
  constructor
  · intro h i hi
    obtain ⟨b, hb, c, hc, rfl⟩ := hx.exists_block hi
    exact h b hb c hc
  · intro h b hb c hc
    exact h _ (Nat.lt_of_lt_of_le (Nat.add_lt_add_left hc _) (hx.blockOffset_add_blockSize_le hb))

/-- The ecc of a block whose data stand in DATA_BUF (R105). -/
theorem blockEcc_of_data {x : SpecRegs} (hx : x.Consistent) {m : Memory} {d : List Byte} {b : Nat}
    (hlen : d.length = x.dataCw.toNat)
    (hd : ∀ i (h : i < d.length), m.read (dataBase + i) = some d[i]) (hb : b < x.blocks) :
    blockEcc x m b =
      some (rsEncode ((d.drop (x.blockOffset b)).take (x.blockSize b)) x.eccPerBlock.toNat) := by
  have hend := hx.blockOffset_add_blockSize_le hb
  have hread : m.readRange (dataBase + x.blockOffset b) (x.blockSize b) =
      some ((d.drop (x.blockOffset b)).take (x.blockSize b)) := by
    refine readRange_eq_some_iff.2 ⟨by simp; omega, fun i hi => ?_⟩
    rw [Nat.add_assoc, hd _ (by simp at hi; omega), List.getElem_take, List.getElem_drop]
  rw [blockEcc, hread]
  rfl

theorem length_ecc {x : SpecRegs} (hx : x.Consistent) {m : Memory} {ecc : List Byte}
    (h : allEcc x m = some ecc) : ecc.length = x.eccCw.toNat := by
  rw [length_of_allEcc h, hx.eccCw_eq]

/-! ### The stream (R106, R108) -/

theorem streamOf_isSome_iff {x : SpecRegs} {m : Memory} :
    (streamOf x m).isSome ↔ ∀ p < x.totalCw.toNat, (m.read (x.codewordAddr p)).isSome := by
  rw [streamOf, allSome_isSome_iff]
  simp

theorem getElem?_of_streamOf {x : SpecRegs} {m : Memory} {stream : List Byte}
    (h : streamOf x m = some stream) {p : Nat} (hp : p < x.totalCw.toNat) :
    stream[p]? = m.read (x.codewordAddr p) := by
  rw [streamOf, allSome_eq_some_iff] at h
  have hentry := congrArg (fun l => l[p]?) h
  rw [List.getElem?_map, List.getElem?_range hp, List.getElem?_map] at hentry
  obtain ⟨b, hb, hread⟩ := Option.map_eq_some_iff.1 hentry.symm
  exact hb.trans hread

/-- Once the ecc is written, every codeword of the order is (R108). -/
theorem streamOf_isSome_of_allEcc {x : SpecRegs} (hx : x.Consistent) {m : Memory} {ecc : List Byte}
    (h : allEcc x m = some ecc) : (streamOf x (m.writeRange eccBase ecc)).isSome := by
  have hdata := (allEcc_isSome_iff hx).1 (Option.isSome_of_eq_some h)
  have hlen := length_ecc hx h
  rw [streamOf_isSome_iff]
  intro p hp
  rcases hx.codewordAddr_range hp with ⟨hle, hlt⟩ | ⟨hle, hlt⟩
  · obtain ⟨i, hi⟩ := Nat.exists_eq_add_of_le hle
    rw [hi] at hlt ⊢
    exact Memory.isSome_read_writeRange _ _ (hdata i (Nat.lt_of_add_lt_add_left hlt))
  · rw [Memory.read_writeRange, if_pos ⟨hle, hlen ▸ hlt⟩, List.getElem?_eq_getElem (by omega)]
    rfl

/-! ### The memory after ASSEMBLE -/

/-- The memory that ASSEMBLE leaves with these ecc codewords and this stream (R108). -/
def assembledMem (m : Memory) (ecc stream : List Byte) : Memory :=
  (m.writeRange eccBase ecc).writeRange streamBase stream

/-- The three buffers of the assembler do not overlap (R43). -/
theorem SpecRegs.Consistent.not_within_stream {x : SpecRegs} (hx : x.Consistent) {a : Nat}
    (ha : within dataBase x.dataCw.toNat a ∨ within eccBase x.eccCw.toNat a) :
    ¬ within streamBase x.totalCw.toNat a := by
  have := hx.totalCw_eq
  have := hx.totalCw_le
  simp only [within, dataBase, eccBase, streamBase] at ha ⊢
  omega

section
variable {x : SpecRegs} {m : Memory} {ecc stream : List Byte} (hlen : stream.length = x.totalCw.toNat)
include hlen

theorem read_assembledMem_stream {p : Nat} (hp : p < x.totalCw.toNat) :
    (assembledMem m ecc stream).read (streamBase + p) = stream[p]? :=
  Memory.read_writeRange_add _ _ _ (hlen ▸ hp)

theorem read_assembledMem_of_not_within {a : Nat} (ha : ¬ within streamBase x.totalCw.toNat a) :
    (assembledMem m ecc stream).read a = (m.writeRange eccBase ecc).read a := by
  unfold within at ha
  exact Memory.read_writeRange_outside _ _ _ (by omega)

theorem read_assembledMem_ecc (hx : x.Consistent) (hecc : ecc.length = x.eccCw.toNat) {i : Nat}
    (hi : i < x.eccCw.toNat) : (assembledMem m ecc stream).read (eccBase + i) = ecc[i]? := by
  have hin : within eccBase x.eccCw.toNat (eccBase + i) :=
    ⟨Nat.le_add_right _ _, Nat.add_lt_add_left hi _⟩
  rw [read_assembledMem_of_not_within hlen (hx.not_within_stream (.inr hin)),
    Memory.read_writeRange_add _ _ _ (hecc ▸ hi)]

theorem bytesKeptBut_assembledMem {s t : State} (hecc : ecc.length = x.eccCw.toNat)
    (ht : t.mem = assembledMem s.mem ecc stream) :
    bytesKeptBut (fun a => within eccBase x.eccCw.toNat a ∨ within streamBase x.totalCw.toNat a) s t := by
  intro a ha
  obtain ⟨hnecc, hnstream⟩ := not_or.1 ha
  unfold within at hnecc
  rw [ht, read_assembledMem_of_not_within hlen hnstream,
    Memory.read_writeRange_outside _ _ _ (by omega)]

end

/-- Each codeword of the order stands written, and its copy in the stream (R106, R108). -/
theorem exists_codeword_of_streamOf {x : SpecRegs} (hx : x.Consistent) {m : Memory}
    {ecc stream : List Byte} (h : streamOf x (m.writeRange eccBase ecc) = some stream) {p : Nat}
    (hp : p < x.totalCw.toNat) :
    ∃ b, (assembledMem m ecc stream).read (streamBase + p) = some b ∧
      (assembledMem m ecc stream).read (x.codewordAddr p) = some b := by
  have hlen := length_of_streamOf h
  have hb : stream[p]? = some (stream[p]'(hlen ▸ hp)) := List.getElem?_eq_getElem _
  refine ⟨_, (read_assembledMem_stream hlen hp).trans hb, ?_⟩
  rw [read_assembledMem_of_not_within hlen (hx.not_within_stream (hx.codewordAddr_range hp)),
    ← getElem?_of_streamOf h hp, hb]

/-! ### ASSEMBLE -/

section
variable {s : State}

theorem execAssemble_of_notReady (hv : s.specValid = false) :
    execAssemble s = .next (s.fail .notReady) := by
  rw [execAssemble, hv]
  rfl

theorem execAssemble_of_unwritten (hv : s.specValid = true) (h : allEcc s.spec s.mem = none) :
    execAssemble s = .fault .unwrittenRead := by
  rw [execAssemble, hv, h]
  rfl

theorem execAssemble_eq_next_iff (hv : s.specValid = true) {t : State} :
    execAssemble s = .next t ↔ ∃ ecc stream, allEcc s.spec s.mem = some ecc ∧
      streamOf s.spec (s.mem.writeRange eccBase ecc) = some stream ∧
      t = ({ s with mem := assembledMem s.mem ecc stream } : State).complete := by
  rw [execAssemble, hv]
  constructor
  · intro h
    obtain ⟨ecc, hecc, h⟩ := withRead_eq_next h
    obtain ⟨stream, hstream, h⟩ := withRead_eq_next h
    exact ⟨ecc, stream, hecc, hstream, (succeed_eq_next.1 h).symm⟩
  · rintro ⟨ecc, stream, hecc, hstream, rfl⟩
    simp only [hecc, hstream, withRead_some]
    rfl

end

/-- Settles O19: with the data written ASSEMBLE completes, and its two ranges hold the ecc of every block
and the stream; a data codeword that nothing has written belongs to a block whose ecc it stops. -/
theorem assembleEncodesAndInterleaves : Obligations.AssembleEncodesAndInterleaves := by
  unfold Obligations.AssembleEncodesAndInterleaves
  refine ⟨encodedAs_encode .assemble, fun v l d s h1 h40 hl hv hspec hd hread => ?_,
    fun s => execAssemble_of_notReady, fun v l i s h1 h40 hl hv hspec hi hnone => ?_⟩
  · have hx : s.spec.Consistent := hspec ▸ consistent_specRegs h1 h40 hl
    obtain ⟨htotal, hdata, heccCw⟩ := specRegs_counts h1 h40 hl
    rw [← hspec] at htotal hdata heccCw
    rw [← hdata] at hd
    obtain ⟨ecc, hecc⟩ : ∃ ecc, allEcc s.spec s.mem = some ecc :=
      Option.isSome_iff_exists.1 ((allEcc_isSome_iff hx).2 fun i hi =>
        Option.isSome_of_eq_some (hread i (hd ▸ hi)))
    obtain ⟨stream, hstream⟩ := Option.isSome_iff_exists.1 (streamOf_isSome_of_allEcc hx hecc)
    have hlen := length_of_streamOf hstream
    have hlenEcc := length_ecc hx hecc
    rw [← htotal, ← heccCw]
    refine ⟨_, (execAssemble_eq_next_iff hv).2 ⟨ecc, stream, hecc, hstream, rfl⟩,
      completedFrom_complete _, ⟨rfl, rfl⟩, fun b hb j hj => ?_, fun p hp => ?_,
      bytesKeptBut_assembledMem hlen hlenEcc rfl, rfl, regsKept_mem s _, ⟨rfl, rfl, rfl, rfl⟩⟩
    · rw [State.complete_mem, read_assembledMem_ecc hlen hx hlenEcc (hx.ecc_index_lt hb hj)]
      exact getElem?_of_allEcc hecc hb (blockEcc_of_data hx hd hread hb) hj
    · obtain ⟨b, hcopy, hb⟩ := exists_codeword_of_streamOf hx hstream hp
      exact ⟨Option.isSome_of_eq_some hcopy, hcopy.trans hb.symm⟩
  · have hx : s.spec.Consistent := hspec ▸ consistent_specRegs h1 h40 hl
    obtain ⟨-, hdata, -⟩ := specRegs_counts h1 h40 hl
    rw [← hspec] at hdata
    refine execAssemble_of_unwritten hv (Option.not_isSome_iff_eq_none.1 fun hsome => ?_)
    have hwritten := (allEcc_isSome_iff hx).1 hsome i (hdata ▸ hi)
    simp [hnone] at hwritten

/-! ### CW_RESET -/

/-- The frame of CW_RESET (R109). -/
theorem regsKept_cwIndex (s : State) (i : BitVec 12) :
    regsKept [.status, .errcode, .cwIndex] s ({ s with cwIndex := i } : State).complete := by
  intro r hr
  cases r with
  | status | errcode | cwIndex => simp at hr
  | _ => rfl

/-- Settles O20: CW_RESET writes CW_INDEX alone. -/
theorem cwResetRewindsCursor : Obligations.CwResetRewindsCursor := by
  unfold Obligations.CwResetRewindsCursor
  exact ⟨encodedAs_encode .cwReset, fun s =>
    ⟨({ s with cwIndex := 0 } : State).complete, rfl, completedFrom_complete _, ⟨rfl, rfl⟩, rfl, rfl,
      regsKept_cwIndex s 0, fun _ => rfl, ⟨rfl, rfl, rfl, rfl⟩⟩⟩

/-! ### CW_NEXT -/

section
variable {s : State}

theorem execCwNext_of_notReady (hv : s.specValid = false) :
    execCwNext s = .next (s.fail .notReady) := by
  rw [execCwNext, hv]
  rfl

variable (hv : s.specValid = true)
include hv

theorem execCwNext_of_end (h : s.spec.totalCw.toNat ≤ s.cwIndex.toNat) :
    execCwNext s = .next (s.fail .cursorExhausted) := by
  rw [execCwNext, hv, if_pos h]
  rfl

theorem execCwNext_of_lt (h : s.cwIndex.toNat < s.spec.totalCw.toNat) :
    execCwNext s = withRead (s.mem.read (s.spec.codewordAddr s.cwIndex.toNat)) fun b =>
      succeed { s with cwOut := b, cwIndex := BitVec.ofNat 12 (s.cwIndex.toNat + 1) } := by
  rw [execCwNext, hv, if_neg (Nat.not_le.2 h)]
  rfl

theorem execCwNext_of_written {b : Byte} (h : s.cwIndex.toNat < s.spec.totalCw.toNat)
    (hb : s.mem.read (s.spec.codewordAddr s.cwIndex.toNat) = some b) :
    execCwNext s =
      .next ({ s with cwOut := b, cwIndex := BitVec.ofNat 12 (s.cwIndex.toNat + 1) } :
        State).complete := by
  rw [execCwNext_of_lt hv h, hb]
  rfl

end

/-- The cursor below TOTAL_CW can be advanced in its register (R34). -/
theorem toNat_cwIndex_succ {i n : BitVec 12} (h : i.toNat < n.toNat) :
    (BitVec.ofNat 12 (i.toNat + 1)).toNat = i.toNat + 1 := by
  rw [BitVec.toNat_ofNat]
  omega

/-- The frame of CW_NEXT (R110). -/
theorem regsKept_cursor (s : State) (i : BitVec 12) (b : Byte) :
    regsKept [.status, .errcode, .cwIndex, .cwOut] s
      ({ s with cwOut := b, cwIndex := i } : State).complete := by
  intro r hr
  cases r with
  | status | errcode | cwIndex | cwOut => simp at hr
  | _ => rfl

/-- Settles O21: each ending of CW_NEXT by the check that leads to it. -/
theorem cwNextYieldsCodeword : Obligations.CwNextYieldsCodeword := by
  unfold Obligations.CwNextYieldsCodeword
  refine ⟨encodedAs_encode .cwNext, fun s => execCwNext_of_notReady, fun s hv =>
    ⟨fun b hlt hb => ?_, execCwNext_of_end hv, fun hlt hnone => ?_⟩⟩
  · exact ⟨_, execCwNext_of_written hv hlt hb, completedFrom_complete _, ⟨rfl, rfl⟩, rfl,
      toNat_cwIndex_succ hlt, rfl, regsKept_cursor s _ b, fun _ => rfl, ⟨rfl, rfl, rfl, rfl⟩⟩
  · exact (execCwNext_of_lt hv hlt).trans (by rw [hnone]; rfl)

/-! ### The cursor after ASSEMBLE -/

/-- The cursor set to a position below TOTAL_CW whose codeword has been written (R110). -/
theorem exec_cwNext_at {t : State} {p : Nat} {b : Byte} (hv : t.specValid = true)
    (hp : p < t.spec.totalCw.toNat) (hb : t.mem.read (t.spec.codewordAddr p) = some b) :
    ∃ u, exec .cwNext { t with cwIndex := BitVec.ofNat 12 p } = .next u ∧ u.cwOut = b ∧
      u.cwIndex.toNat = p + 1 := by
  obtain ⟨i, rfl⟩ : ∃ i : BitVec 12, i.toNat = p :=
    ⟨BitVec.ofNat 12 p, Nat.mod_eq_of_lt (hp.trans t.spec.totalCw.isLt)⟩
  rw [BitVec.ofNat_toNat, BitVec.setWidth_eq]
  exact ⟨_, execCwNext_of_written (s := { t with cwIndex := i }) hv hp hb, rfl, toNat_cwIndex_succ hp⟩

/-- Settles O22: the codeword at position p is still the byte that ASSEMBLE copied to STREAM_BUF[p]. -/
theorem cursorYieldsAssembledStream : Obligations.CursorYieldsAssembledStream := by
  unfold Obligations.CursorYieldsAssembledStream
  intro v l p s t h1 h40 hl hspec hv ht hp
  have hx : s.spec.Consistent := hspec ▸ consistent_specRegs h1 h40 hl
  rw [← (specRegs_counts h1 h40 hl).1, ← hspec] at hp
  obtain ⟨ecc, stream, -, hstream, ht⟩ := (execAssemble_eq_next_iff hv).1 ht
  obtain ⟨b, hcopy, hb⟩ := exists_codeword_of_streamOf hx hstream hp
  have hmem : t.mem = assembledMem s.mem ecc stream := congrArg State.mem ht
  have hspec' : t.spec = s.spec := (congrArg State.spec ht).trans rfl
  have hv' : t.specValid = true := (congrArg State.specValid ht).trans hv
  rw [← hmem] at hcopy hb
  rw [← hspec'] at hp hb
  obtain ⟨u, hu, rfl, hindex⟩ := exec_cwNext_at hv' hp hb
  exact ⟨u, hu, hcopy, hindex⟩

end Sys2Proof.Machine
end

section
/-! PROOFS. The steps of the skeleton (45_frame_placement.md section 1): which cells each of them sets,
and what the construction leaves at them. -/

namespace Sys2Proof.Machine

open Sys2Proof

/-! ### The alignment centres (R76, R112) -/

/-- The centres are even and lie at 6, at W-7, or well between the finder patterns. -/
theorem alignmentCentres_range : ∀ v, 1 ≤ v → v ≤ 40 → ∀ a ∈ alignmentCentres v,
    a % 2 = 0 ∧ (a = 6 ∨ a + 7 = symbolWidth v ∨ 11 ≤ a ∧ a + 14 ≤ symbolWidth v) :=
  forall_version (by decide)

/-- No coordinate is near two centres. -/
theorem alignmentCentres_apart : ∀ v, 1 ≤ v → v ≤ 40 → ∀ a ∈ alignmentCentres v,
    ∀ b ∈ alignmentCentres v, a < b → a + 5 ≤ b :=
  forall_version (by decide +kernel)

/-- The pairs of step 3 by their coordinates: all but the three centres inside a finder pattern. -/
theorem mem_alignmentPairs_iff : ∀ v, 1 ≤ v → v ≤ 40 → ∀ a ∈ alignmentCentres v,
    ∀ b ∈ alignmentCentres v, (a, b) ∈ alignmentPairs v ↔
      ¬ (a = 6 ∧ b = 6) ∧ ¬ (a = 6 ∧ b + 7 = symbolWidth v) ∧ ¬ (a + 7 = symbolWidth v ∧ b = 6) :=
  forall_version (by decide +kernel)

/-- The pairs of step 3 by their places in the list of centres (R112). -/
theorem mem_alignmentPairs {v a b : Nat} :
    (a, b) ∈ alignmentPairs v ↔
      ∃ i j, (alignmentCentres v)[i]? = some a ∧ (alignmentCentres v)[j]? = some b ∧
        ¬ (i = 0 ∧ j = 0) ∧ ¬ (i = 0 ∧ j + 1 = (alignmentCentres v).length) ∧
        ¬ (i + 1 = (alignmentCentres v).length ∧ j = 0) := by
  unfold alignmentPairs
  simp only [List.mem_flatMap, List.mem_map, List.mem_filter, List.mem_range, Prod.mk.injEq]
  constructor
  · rintro ⟨i, hi, j, ⟨hj, hout⟩, rfl, rfl⟩
    refine ⟨i, j, by simp [hi], by simp [hj], ?_⟩
    simp only [Bool.not_or, Bool.not_and, Bool.and_eq_true, Bool.or_eq_true, Bool.not_eq_eq_eq_not,
      Bool.not_true, beq_eq_false_iff_ne, ne_eq] at hout
    omega
  · rintro ⟨i, j, ha, hb, h00, h0n, hn0⟩
    obtain ⟨hi, rfl⟩ := List.getElem?_eq_some_iff.1 ha
    obtain ⟨hj, rfl⟩ := List.getElem?_eq_some_iff.1 hb
    refine ⟨i, hi, j, ⟨hj, ?_⟩, by simp [hi], by simp [hj]⟩
    simp only [Bool.not_or, Bool.not_and, Bool.and_eq_true, Bool.or_eq_true, Bool.not_eq_eq_eq_not,
      Bool.not_true, beq_eq_false_iff_ne, ne_eq]
    omega

theorem ringOf_le_iff {a b r c k : Nat} :
    ringOf a b r c ≤ k ↔ r ≤ a + k ∧ a ≤ r + k ∧ c ≤ b + k ∧ b ≤ c + k := by
  unfold ringOf absDiff
  omega

/-- The cell (r, c) lies in the alignment pattern around the pair p (R111 step 3). -/
def nearPair (v : Nat) (p : Nat × Nat) (r c : Nat) : Prop :=
  p ∈ alignmentPairs v ∧ ringOf p.1 p.2 r c ≤ 2

section
variable {v r c : Nat} {p : Nat × Nat} (h1 : 1 ≤ v) (h40 : v ≤ 40) (h : nearPair v p r c)
include h

theorem nearPair.mem_centres : p.1 ∈ alignmentCentres v ∧ p.2 ∈ alignmentCentres v := by
  obtain ⟨i, j, ha, hb, -⟩ := mem_alignmentPairs.1 h.1
  exact ⟨List.mem_of_getElem? ha, List.mem_of_getElem? hb⟩

include h1 h40

/-- An alignment pattern stays clear of the three corners and of the version blocks. -/
theorem nearPair.clear (hw : 21 ≤ symbolWidth v) :
    ¬ (r ≤ 8 ∧ c ≤ 8) ∧ ¬ (r ≤ 8 ∧ symbolWidth v - 8 ≤ c) ∧ ¬ (symbolWidth v - 8 ≤ r ∧ c ≤ 8) ∧
      ¬ (r < 6 ∧ symbolWidth v - 11 ≤ c) ∧ ¬ (symbolWidth v - 11 ≤ r ∧ c < 6) := by
  obtain ⟨ha, hb⟩ := h.mem_centres
  obtain ⟨hmem, hring⟩ := h
  have hra := alignmentCentres_range v h1 h40 _ ha
  have hrb := alignmentCentres_range v h1 h40 _ hb
  have hout := (mem_alignmentPairs_iff v h1 h40 _ ha _ hb).1 hmem
  rw [ringOf_le_iff] at hring
  omega

theorem nearPair.unique {q : Nat × Nat} (hq : nearPair v q r c) : p = q := by
  obtain ⟨ha, hb⟩ := h.mem_centres
  obtain ⟨ha', hb'⟩ := hq.mem_centres
  have hp := ringOf_le_iff.1 h.2
  have hq := ringOf_le_iff.1 hq.2
  have h₁ := alignmentCentres_apart v h1 h40 _ ha _ ha'
  have h₂ := alignmentCentres_apart v h1 h40 _ ha' _ ha
  have h₃ := alignmentCentres_apart v h1 h40 _ hb _ hb'
  have h₄ := alignmentCentres_apart v h1 h40 _ hb' _ hb
  exact Prod.ext (by omega) (by omega)

end

/-! ### The cells that a step sets (R111) -/

section
variable {v w r c : Nat}

theorem finderAt_isSome {r0 c0 : Nat} :
    (finderAt r0 c0 r c).isSome ↔ ringOf (r0 + 3) (c0 + 3) r c ≤ 4 :=
  Option.isSome_ite

theorem finderStep_isSome (hw : 21 ≤ w) (hr : r < w) (hc : c < w) :
    (finderStep w r c).isSome ↔
      (r ≤ 7 ∧ c ≤ 7) ∨ (r ≤ 7 ∧ w - 8 ≤ c) ∨ (w - 8 ≤ r ∧ c ≤ 7) := by
  simp only [finderStep, Option.isSome_or, Bool.or_eq_true, finderAt_isSome, ringOf_le_iff]
  omega

theorem timingStep_isSome : (timingStep r c).isSome ↔ r = 6 ∨ c = 6 := by
  unfold timingStep
  split_ifs <;> simp [*]

theorem formatFreeStep_isSome :
    (formatFreeStep r c).isSome ↔ (r = 8 ∧ c ≤ 8) ∨ (c = 8 ∧ r ≤ 8) :=
  Option.isSome_ite

theorem formatStep_isSome :
    (formatStep w r c).isSome ↔
      (r = 8 ∧ w - 8 ≤ c ∧ c < w) ∨ (c = 8 ∧ w - 7 ≤ r ∧ r < w) :=
  Option.isSome_ite

theorem darkStep_isSome : (darkStep w r c).isSome ↔ r = w - 8 ∧ c = 8 :=
  Option.isSome_ite

theorem versionStep_isSome :
    (versionStep v w r c).isSome ↔
      7 ≤ v ∧ ((r < 6 ∧ w - 11 ≤ c ∧ c ≤ w - 9) ∨ (c < 6 ∧ w - 11 ≤ r ∧ r ≤ w - 9)) := by
  unfold versionStep
  split_ifs <;> simp <;> omega

theorem alignmentStep_isSome :
    (alignmentStep (alignmentPairs v) r c).isSome ↔ ∃ p, nearPair v p r c := by
  unfold alignmentStep nearPair
  cases hfind : (alignmentPairs v).find? fun p => ringOf p.1 p.2 r c ≤ 2 with
  | none => simpa using hfind
  | some p =>
    have hp := List.find?_some hfind
    simp only [decide_eq_true_eq] at hp
    simpa using ⟨p.1, p.2, List.mem_of_find?_eq_some hfind, hp⟩

/-- The alignment pattern of the one pair that the cell is near. -/
theorem nearPair.alignmentStep_eq {p : Nat × Nat} (h1 : 1 ≤ v) (h40 : v ≤ 40) (h : nearPair v p r c) :
    alignmentStep (alignmentPairs v) r c = some (ringOf p.1 p.2 r c != 1) := by
  unfold alignmentStep
  cases hfind : (alignmentPairs v).find? fun p => ringOf p.1 p.2 r c ≤ 2 with
  | none => exact absurd h.2 (by simpa using List.find?_eq_none.1 hfind p h.1)
  | some q =>
    have hq := List.find?_some hfind
    simp only [decide_eq_true_eq] at hq
    rw [h.unique h1 h40 ⟨List.mem_of_find?_eq_some hfind, hq⟩]

/-- A step that sets no cell there. -/
theorem eq_none_of_isSome {o : Option Bool} {p : Prop} (h : o.isSome ↔ p) (hp : ¬ p) : o = none :=
  Option.not_isSome_iff_eq_none.1 fun ho => hp (h.1 ho)

end

/-! ### What the construction leaves -/

theorem symbolWidth_ge {v : Nat} (h1 : 1 ≤ v) : 21 ≤ symbolWidth v := by
  unfold symbolWidth
  omega

theorem skeleton_of_outside {v r c : Nat} (h : symbolWidth v ≤ r ∨ symbolWidth v ≤ c) :
    skeleton v r c = cellByte false false := by
  unfold skeleton skeletonByte
  rw [if_neg (by omega)]

theorem skeleton_of_dark {v r c : Nat} {d : Bool} (hr : r < symbolWidth v) (hc : c < symbolWidth v)
    (h : skeletonDark v (symbolWidth v) (alignmentPairs v) r c = some d) :
    skeleton v r c = cellByte d true := by
  unfold skeleton skeletonByte
  rw [if_pos ⟨hr, hc⟩, h]

/-- Where the last three parts of the construction set nothing, the steps before them decide. -/
theorem skeletonDark_of_not_late {v r c : Nat}
    (hversion : ¬ ((r < 6 ∧ symbolWidth v - 11 ≤ c ∧ c ≤ symbolWidth v - 9) ∨
      (c < 6 ∧ symbolWidth v - 11 ≤ r ∧ r ≤ symbolWidth v - 9)))
    (hdark : ¬ (r = symbolWidth v - 8 ∧ c = 8))
    (hformat : ¬ ((r = 8 ∧ symbolWidth v - 8 ≤ c) ∨ (c = 8 ∧ symbolWidth v - 7 ≤ r))) :
    skeletonDark v (symbolWidth v) (alignmentPairs v) r c =
      ((alignmentStep (alignmentPairs v) r c).or <| (finderStep (symbolWidth v) r c).or <|
        timingStep r c).or (formatFreeStep r c) := by
  rw [skeletonDark, eq_none_of_isSome versionStep_isSome fun h => hversion h.2,
    eq_none_of_isSome darkStep_isSome hdark, eq_none_of_isSome formatStep_isSome (by omega)]
  rfl

/-- A cell is reserved where some step sets it. -/
theorem cellReserved_skeleton {v r c : Nat} (hr : r < symbolWidth v) (hc : c < symbolWidth v) :
    cellReserved (skeleton v r c) =
      (skeletonDark v (symbolWidth v) (alignmentPairs v) r c).isSome := by
  unfold skeleton skeletonByte
  rw [if_pos ⟨hr, hc⟩]
  cases skeletonDark v (symbolWidth v) (alignmentPairs v) r c <;> simp

section
variable {v r c : Nat} (h1 : 1 ≤ v) (h40 : v ≤ 40) (hr : r < symbolWidth v) (hc : c < symbolWidth v)
include hr hc

/-- Step 6 is the last (R111). -/
theorem skeleton_of_versionStep {d : Bool} (h : versionStep v (symbolWidth v) r c = some d) :
    skeleton v r c = cellByte d true :=
  skeleton_of_dark hr hc (by rw [skeletonDark, h]; rfl)

include h1

/-- Step 5: the dark module. -/
theorem skeleton_of_darkModule (hrow : r = symbolWidth v - 8) (hcol : c = 8) :
    skeleton v r c = cellByte true true := by
  have hw := symbolWidth_ge h1
  have hver : versionStep v (symbolWidth v) r c = none :=
    eq_none_of_isSome versionStep_isSome (by omega)
  have hdark : darkStep (symbolWidth v) r c = some true := if_pos ⟨hrow, hcol⟩
  exact skeleton_of_dark hr hc (by rw [skeletonDark, hver, hdark]; rfl)

/-- Step 4: the placeholders that are set in any case. -/
theorem skeleton_of_formatStep
    (h : (r = 8 ∧ symbolWidth v - 8 ≤ c) ∨ (c = 8 ∧ symbolWidth v - 7 ≤ r)) :
    skeleton v r c = cellByte false true := by
  have hw := symbolWidth_ge h1
  have hver : versionStep v (symbolWidth v) r c = none :=
    eq_none_of_isSome versionStep_isSome (by omega)
  have hdark : darkStep (symbolWidth v) r c = none := eq_none_of_isSome darkStep_isSome (by omega)
  have hformat : formatStep (symbolWidth v) r c = some false := if_pos (by omega)
  exact skeleton_of_dark hr hc (by rw [skeletonDark, hver, hdark, hformat]; rfl)

include h40

/-- Step 3: an alignment pattern is overwritten by no later step. -/
theorem skeleton_of_nearPair {p : Nat × Nat} (h : nearPair v p r c) :
    skeleton v r c = cellByte (ringOf p.1 p.2 r c != 1) true := by
  have hw := symbolWidth_ge h1
  have hclear := h.clear h1 h40 hw
  have hearly := skeletonDark_of_not_late (v := v) (r := r) (c := c) (by omega) (by omega) (by omega)
  refine skeleton_of_dark hr hc ?_
  rw [hearly, h.alignmentStep_eq h1 h40]
  rfl

/-- Step 1: a finder pattern with its separator. -/
theorem skeleton_of_finderStep {d : Bool} (h : finderStep (symbolWidth v) r c = some d) :
    skeleton v r c = cellByte d true := by
  have hw := symbolWidth_ge h1
  have hcorner := (finderStep_isSome hw hr hc).1 (Option.isSome_of_eq_some h)
  have hearly := skeletonDark_of_not_late (v := v) (r := r) (c := c) (by omega) (by omega) (by omega)
  have halign : alignmentStep (alignmentPairs v) r c = none :=
    eq_none_of_isSome alignmentStep_isSome fun ⟨_, hp⟩ => by have := hp.clear h1 h40 hw; omega
  refine skeleton_of_dark hr hc ?_
  rw [hearly, halign, h]
  rfl

/-- Step 4: the placeholders that are set only where free. -/
theorem skeleton_of_formatFreeStep (h : (r = 8 ∧ c ≤ 8 ∧ c ≠ 6) ∨ (c = 8 ∧ r ≤ 8 ∧ r ≠ 6)) :
    skeleton v r c = cellByte false true := by
  have hw := symbolWidth_ge h1
  have hearly := skeletonDark_of_not_late (v := v) (r := r) (c := c) (by omega) (by omega) (by omega)
  have halign : alignmentStep (alignmentPairs v) r c = none :=
    eq_none_of_isSome alignmentStep_isSome fun ⟨_, hp⟩ => by have := hp.clear h1 h40 hw; omega
  have hfinder : finderStep (symbolWidth v) r c = none :=
    eq_none_of_isSome (finderStep_isSome hw hr hc) (by omega)
  have htiming : timingStep r c = none := eq_none_of_isSome timingStep_isSome (by omega)
  have hfree : formatFreeStep r c = some false := if_pos (by omega)
  refine skeleton_of_dark hr hc ?_
  rw [hearly, halign, hfinder, htiming, hfree]
  rfl

end

/-- Both timing patterns are dark where the sum of row and column is even. -/
theorem timingStep_eq {r c : Nat} (h : r = 6 ∨ c = 6) : timingStep r c = some ((r + c) % 2 == 0) := by
  unfold timingStep
  split_ifs with h6 hc6
  · rw [show (r + c) % 2 = c % 2 by omega]
  · rw [show (r + c) % 2 = r % 2 by omega]
  · exact absurd h (not_or.2 ⟨h6, hc6⟩)

theorem absDiff_self (a : Nat) : absDiff a a = 0 := by
  simp [absDiff]

/-- Near an even centre the distance 1 is that of the odd coordinates. -/
theorem absDiff_ne_one_iff {x a : Nat} (hx : x ≤ a + 2) (ha : a ≤ x + 2) (heven : a % 2 = 0) :
    absDiff x a ≠ 1 ↔ x % 2 = 0 := by
  unfold absDiff
  omega

section
variable {v r c : Nat} (h1 : 1 ≤ v) (h40 : v ≤ 40)
include h1 h40

/-- On a timing line an alignment pattern agrees with the timing pattern, its centre being even. -/
theorem nearPair.ring_of_timing {p : Nat × Nat} (h : nearPair v p r c) (hline : r = 6 ∨ c = 6) :
    (ringOf p.1 p.2 r c != 1) = ((r + c) % 2 == 0) := by
  obtain ⟨ha, hb⟩ := h.mem_centres
  have hra := alignmentCentres_range v h1 h40 _ ha
  have hrb := alignmentCentres_range v h1 h40 _ hb
  have hw := symbolWidth_ge h1
  obtain ⟨hr1, hr2, hc1, hc2⟩ := ringOf_le_iff.1 h.2
  rw [Bool.eq_iff_iff, bne_iff_ne, beq_iff_eq]
  rcases hline with rfl | rfl
  · have h6 : p.1 = 6 := by omega
    rw [h6, ringOf, absDiff_self, Nat.zero_max, absDiff_ne_one_iff hc1 hc2 hrb.1]
    omega
  · have h6 : p.2 = 6 := by omega
    rw [h6, ringOf, absDiff_self, Nat.max_zero, absDiff_ne_one_iff hr1 hr2 hra.1]
    omega

/-- Step 2: a timing pattern between the finder patterns. -/
theorem skeleton_of_timingStep
    (h : (r = 6 ∧ 8 ≤ c ∧ c + 8 < symbolWidth v) ∨ (c = 6 ∧ 8 ≤ r ∧ r + 8 < symbolWidth v)) :
    skeleton v r c = cellByte ((r + c) % 2 == 0) true := by
  have hw := symbolWidth_ge h1
  have hr : r < symbolWidth v := by omega
  have hc : c < symbolWidth v := by omega
  by_cases hnear : ∃ p, nearPair v p r c
  · obtain ⟨p, hp⟩ := hnear
    rw [skeleton_of_nearPair h1 h40 hr hc hp, hp.ring_of_timing h1 h40 (by omega)]
  · have hearly := skeletonDark_of_not_late (v := v) (r := r) (c := c) (by omega) (by omega) (by omega)
    have halign : alignmentStep (alignmentPairs v) r c = none :=
      eq_none_of_isSome alignmentStep_isSome hnear
    have hfinder : finderStep (symbolWidth v) r c = none :=
      eq_none_of_isSome (finderStep_isSome hw hr hc) (by omega)
    refine skeleton_of_dark hr hc ?_
    rw [hearly, halign, hfinder, timingStep_eq (by omega)]
    rfl

end

/-! ### The patterns of R111 -/

/-- Inside the square of a corner the finder pattern of this corner is drawn. -/
theorem finderStep_of_corner {w r0 c0 r c : Nat} (hw : 21 ≤ w)
    (hcorner : (r0 = 0 ∧ c0 = 0) ∨ (r0 = 0 ∧ c0 = w - 7) ∨ (r0 = w - 7 ∧ c0 = 0))
    (hrow : r0 ≤ r + 1 ∧ r ≤ r0 + 7) (hcol : c0 ≤ c + 1 ∧ c ≤ c0 + 7) :
    finderStep w r c =
      some (ringOf (r0 + 3) (c0 + 3) r c == 0 || ringOf (r0 + 3) (c0 + 3) r c == 1 ||
        ringOf (r0 + 3) (c0 + 3) r c == 3) := by
  have hin : ringOf (r0 + 3) (c0 + 3) r c ≤ 4 := ringOf_le_iff.2 (by omega)
  have hat : finderAt r0 c0 r c = some _ := if_pos hin
  have hout (a b : Nat) (h : ¬ (r ≤ a + 7 ∧ a ≤ r + 1 ∧ c ≤ b + 7 ∧ b ≤ c + 1)) :
      finderAt a b r c = none :=
    if_neg fun hle => h (by rw [ringOf_le_iff] at hle; omega)
  unfold finderStep
  rcases hcorner with ⟨rfl, rfl⟩ | ⟨rfl, rfl⟩ | ⟨rfl, rfl⟩
  · rw [hat]
    rfl
  · rw [hout 0 0 (by omega), hat]
    rfl
  · rw [hout 0 0 (by omega), hout 0 (w - 7) (by omega), hat]
    rfl

/-- The format cells of R123 are the placeholders of step 4. -/
theorem skeleton_formatCell1 {v i : Nat} (h1 : 1 ≤ v) (h40 : v ≤ 40) (hi : i < 15) :
    skeleton v (formatCell1 i).1 (formatCell1 i).2 = cellByte false true := by
  have hw := symbolWidth_ge h1
  obtain ⟨hr, hc, -⟩ := formatCells_lt hw hi
  refine skeleton_of_formatFreeStep h1 h40 hr hc ?_
  unfold formatCell1
  split_ifs <;> dsimp only <;> omega

theorem skeleton_formatCell2 {v i : Nat} (h1 : 1 ≤ v) (hi : i < 15) :
    skeleton v (formatCell2 (symbolWidth v) i).1 (formatCell2 (symbolWidth v) i).2 =
      cellByte false true := by
  have hw := symbolWidth_ge h1
  obtain ⟨-, -, hr, hc⟩ := formatCells_lt hw hi
  refine skeleton_of_formatStep h1 hr hc ?_
  unfold formatCell2
  split_ifs <;> dsimp only <;> omega

/-- The version blocks of step 6. -/
theorem skeleton_versionBlocks {v i : Nat} (h7 : 7 ≤ v) (hi : i < 18) :
    skeleton v (i / 3) (symbolWidth v - 11 + i % 3) = cellByte ((versionWord v).getLsbD i) true ∧
      skeleton v (symbolWidth v - 11 + i % 3) (i / 3) = cellByte ((versionWord v).getLsbD i) true := by
  have hw : 45 ≤ symbolWidth v := by unfold symbolWidth; omega
  have hbit : 3 * (i / 3) + (symbolWidth v - 11 + i % 3 - (symbolWidth v - 11)) = i := by omega
  constructor
  · refine skeleton_of_versionStep (by omega) (by omega) ?_
    unfold versionStep
    rw [if_neg (by omega), if_pos (by omega), hbit]
  · refine skeleton_of_versionStep (by omega) (by omega) ?_
    unfold versionStep
    rw [if_neg (by omega), if_neg (by omega), if_pos (by omega), hbit]

/-- Settles O25: each clause is one step, which no later step overwrites and, for the timing patterns,
the alignment patterns agree with. -/
theorem skeletonPatterns : Obligations.SkeletonPatterns := by
  unfold Obligations.SkeletonPatterns
  intro v h1 h40
  have hw := symbolWidth_ge h1
  dsimp only
  refine ⟨fun r0 c0 hcorner r c hr hc hr1 hr7 hc1 hc7 => ?_, fun i h8 hi => ⟨?_, ?_⟩,
    fun i j a b ha hb h00 h0n hn0 r c hr2 h2r hc2 h2c => ?_,
    fun i hi => ⟨skeleton_formatCell1 h1 h40 hi, skeleton_formatCell2 h1 hi⟩, ?_,
    fun h7 i hi => skeleton_versionBlocks h7 hi, fun r c h => skeleton_of_outside h⟩
  · exact skeleton_of_finderStep h1 h40 hr hc
      (finderStep_of_corner hw hcorner ⟨hr1, hr7⟩ ⟨hc1, hc7⟩)
  · rw [skeleton_of_timingStep h1 h40 (.inl ⟨rfl, h8, hi⟩)]
    congr 2
    omega
  · rw [skeleton_of_timingStep h1 h40 (.inr ⟨rfl, h8, hi⟩)]
    congr 2
    omega
  · have hra := alignmentCentres_range v h1 h40 a (List.mem_of_getElem? ha)
    have hrb := alignmentCentres_range v h1 h40 b (List.mem_of_getElem? hb)
    have hnear : nearPair v (a, b) r c :=
      ⟨mem_alignmentPairs.2 ⟨i, j, ha, hb, h00, h0n, hn0⟩, ringOf_le_iff.2 ⟨h2r, hr2, h2c, hc2⟩⟩
    rw [skeleton_of_nearPair h1 h40 (by omega) (by omega) hnear]
    rfl
  · exact skeleton_of_darkModule h1 (by omega) (by omega) rfl rfl

end Sys2Proof.Machine
end

section
/-! PROOFS. The number of free cells of a skeleton: a step sets a cell by the zones of its row and its
column, and there are ten zones. -/

namespace Sys2Proof.Machine

open Sys2Proof

/-! ### Zones -/

/-- Where a row or column of a symbol lies: from the low edge through the first centre's band (4 to 8, with
the timing line 6 in it) to the last centre's band (W-9 to W-5, which begins with the last line of the
version band W-11 to W-9) and the high edge. -/
inductive Zone where
  | lowEdge | lowBand | timing | lowMargin
  | plain | centre
  | version | versionLast | highBand | highEdge
  deriving DecidableEq, Repr

/-- The ten zones. -/
def Zone.all : Finset Zone :=
  {.lowEdge, .lowBand, .timing, .lowMargin, .plain, .centre, .version, .versionLast, .highBand,
    .highEdge}

theorem Zone.mem_all (z : Zone) : z ∈ Zone.all := by
  cases z <;> decide

/-- The zone of a row or column x of a symbol of version v. -/
def zone (v x : Nat) : Zone :=
  let w := symbolWidth v
  if x < 4 then .lowEdge
  else if x < 6 then .lowBand
  else if x = 6 then .timing
  else if x ≤ 8 then .lowMargin
  else if w - 4 ≤ x then .highEdge
  else if w - 8 ≤ x then .highBand
  else if w - 9 ≤ x then .versionLast
  else if w - 11 ≤ x then .version
  else if (alignmentCentres v).any fun a => a ≤ x + 2 && x ≤ a + 2 then .centre
  else .plain

/-- At most 8. -/
def Zone.isLow : Zone → Bool
  | .lowEdge | .lowBand | .timing | .lowMargin => true
  | _ => false

/-- At least W-8. -/
def Zone.isHigh : Zone → Bool
  | .highBand | .highEdge => true
  | _ => false

/-- Below 6: the length of a version block. -/
def Zone.isBlockLength : Zone → Bool
  | .lowEdge | .lowBand => true
  | _ => false

/-- W-11 to W-9: the width of a version block. -/
def Zone.isBlockWidth : Zone → Bool
  | .version | .versionLast => true
  | _ => false

/-- Within 2 of the first centre, 6. -/
def Zone.nearFirst : Zone → Bool
  | .lowBand | .timing | .lowMargin => true
  | _ => false

/-- Within 2 of the last centre, W-7. -/
def Zone.nearLast : Zone → Bool
  | .versionLast | .highBand => true
  | _ => false

/-- Within 2 of a centre. -/
def Zone.nearCentre (z : Zone) : Bool := z.nearFirst || z.nearLast || z == .centre

/-- Whether a cell lies in an alignment pattern, by the zones of its row and its column: near a centre in
both, but not near one of the three pairs that lie in a finder pattern (R112). -/
def Zone.aligns (v : Nat) (y x : Zone) : Bool :=
  decide (2 ≤ v) && y.nearCentre && x.nearCentre && !(y.nearFirst && x.nearFirst) &&
    !(y.nearFirst && x.nearLast) && !(y.nearLast && x.nearFirst)

/-- Whether a cell lies in a version block, by the zones of its row and its column (R111 step 6). -/
def Zone.blocks (v : Nat) (y x : Zone) : Bool :=
  decide (7 ≤ v) && ((y.isBlockLength && x.isBlockWidth) || (x.isBlockLength && y.isBlockWidth))

/-- Whether a cell is reserved, by the zones of its row and its column: one of the corners, a timing line,
a version block or an alignment pattern. -/
def Zone.reserves (v : Nat) (y x : Zone) : Bool :=
  (y.isLow && x.isLow) || (y.isLow && x.isHigh) || (y.isHigh && x.isLow) ||
  y == .timing || x == .timing ||
  y.blocks v x || y.aligns v x

/-- How many rows lie in a zone. -/
def Zone.size (v : Nat) : Zone → Nat
  | .lowEdge | .highBand | .highEdge => 4
  | .lowBand | .lowMargin | .version => 2
  | .timing | .versionLast => 1
  | .centre => 5 * ((alignmentCentres v).length - 2)
  | .plain => symbolWidth v - 20 - 5 * ((alignmentCentres v).length - 2)

/-- From version 2 on 6 and W-7 are centres (R76). -/
theorem alignmentCentres_ends : ∀ v, 1 ≤ v → v ≤ 40 → 2 ≤ v →
    6 ∈ alignmentCentres v ∧ symbolWidth v - 7 ∈ alignmentCentres v :=
  forall_version (by decide)

/-- Version 1 has no centres (R76). -/
theorem two_le_of_mem_alignmentCentres {v a : Nat} (h1 : 1 ≤ v) (ha : a ∈ alignmentCentres v) :
    2 ≤ v := by
  rcases Nat.lt_or_eq_of_le h1 with h | rfl
  · exact h
  · exact absurd ha List.not_mem_nil

/-- The sizes, counted in each of the 40 versions. -/
theorem card_zone : ∀ v, 1 ≤ v → v ≤ 40 → ∀ z ∈ Zone.all,
    ((Finset.range (symbolWidth v)).filter fun x => zone v x = z).card = z.size v :=
  forall_version (by decide +kernel)

/-- A sum over the rows or columns of a symbol whose terms depend on the zone alone. -/
theorem sum_zone {v : Nat} (h1 : 1 ≤ v) (h40 : v ≤ 40) (f : Zone → Nat) :
    ∑ x ∈ Finset.range (symbolWidth v), f (zone v x) = ∑ z ∈ Zone.all, z.size v * f z := by
  rw [← Finset.sum_fiberwise_of_maps_to' (t := Zone.all) (g := zone v) fun x _ => Zone.mem_all _]
  refine Finset.sum_congr rfl fun z hz => ?_
  rw [Finset.sum_const, card_zone v h1 h40 z hz, smul_eq_mul]

/-- The pairs of zones that no step reserves, each as often as it occurs: the codewords' bits and the
remainder bits (R113). -/
theorem sum_freeZones : ∀ v, 1 ≤ v → v ≤ 40 → ∀ l < 4,
    ∑ y ∈ Zone.all, y.size v * ∑ x ∈ Zone.all, x.size v * (if y.reserves v x then 0 else 1) =
      8 * (capacityRow v l).total + remainderBits v :=
  forall_version (by decide +kernel)

/-! ### The zones in coordinates -/

section
variable {v : Nat} (h1 : 1 ≤ v) (h40 : v ≤ 40)
include h1

/-- What the zone of x says of x. -/
theorem zone_iff (x : Nat) :
    ((zone v x).isLow = true ↔ x ≤ 8) ∧ ((zone v x).isHigh = true ↔ symbolWidth v - 8 ≤ x) ∧
      (zone v x = .timing ↔ x = 6) ∧ ((zone v x).isBlockLength = true ↔ x < 6) ∧
      ((zone v x).isBlockWidth = true ↔ symbolWidth v - 11 ≤ x ∧ x ≤ symbolWidth v - 9) ∧
      ((zone v x).nearFirst = true ↔ 4 ≤ x ∧ x ≤ 8) ∧
      ((zone v x).nearLast = true ↔ symbolWidth v - 9 ≤ x ∧ x ≤ symbolWidth v - 5) := by
  have hw := symbolWidth_ge h1
  generalize hz : zone v x = z
  unfold zone at hz
  dsimp only at hz
  split_ifs at hz <;> subst hz <;>
    simp only [Zone.isLow, Zone.isHigh, Zone.isBlockLength, Zone.isBlockWidth, Zone.nearFirst,
      Zone.nearLast, reduceCtorEq, Bool.false_eq_true, true_iff, false_iff] <;> omega

theorem zone_eq_centre {x : Nat} :
    zone v x = .centre ↔ 9 ≤ x ∧ x + 11 < symbolWidth v ∧
      ∃ a ∈ alignmentCentres v, a ≤ x + 2 ∧ x ≤ a + 2 := by
  have hw := symbolWidth_ge h1
  by_cases hmid : 9 ≤ x ∧ x + 11 < symbolWidth v
  · unfold zone
    dsimp only
    rw [if_neg (by omega), if_neg (by omega), if_neg (by omega), if_neg (by omega), if_neg (by omega),
      if_neg (by omega), if_neg (by omega), if_neg (by omega)]
    simp [hmid.1, hmid.2]
  · refine iff_of_false (fun hcentre => ?_) fun ⟨h, h', _⟩ => hmid ⟨h, h'⟩
    unfold zone at hcentre
    dsimp only at hcentre
    split_ifs at hcentre
    omega

/-- The version blocks by zones. -/
theorem versionStep_isSome_iff {r c : Nat} :
    (versionStep v (symbolWidth v) r c).isSome ↔ (zone v r).blocks v (zone v c) = true := by
  obtain ⟨-, -, -, hlength, hwidth, -⟩ := zone_iff h1 r
  obtain ⟨-, -, -, hlength', hwidth', -⟩ := zone_iff h1 c
  simp only [versionStep_isSome, Zone.blocks, Bool.and_eq_true, Bool.or_eq_true, decide_eq_true_eq,
    hlength, hwidth, hlength', hwidth']

include h40

/-- The zones near a centre are those of the three kinds of centre (R76). -/
theorem nearCentre_zone (h2 : 2 ≤ v) {x : Nat} :
    (zone v x).nearCentre = true ↔ ∃ a ∈ alignmentCentres v, a ≤ x + 2 ∧ x ≤ a + 2 := by
  have hw := symbolWidth_ge h1
  obtain ⟨-, -, -, -, -, hfirst, hlast⟩ := zone_iff h1 x
  have hcentre := zone_eq_centre h1 (x := x)
  obtain ⟨h6, h7⟩ := alignmentCentres_ends v h1 h40 h2
  simp only [Zone.nearCentre, Bool.or_eq_true, beq_iff_eq, hfirst, hlast, hcentre]
  constructor
  · rintro ((h | h) | ⟨-, -, h⟩)
    · exact ⟨6, h6, by omega⟩
    · exact ⟨_, h7, by omega⟩
    · exact h
  · rintro ⟨a, ha, hx⟩
    rcases (alignmentCentres_range v h1 h40 a ha).2 with h | h | h
    · exact .inl (.inl (by omega))
    · exact .inl (.inr (by omega))
    · exact .inr ⟨by omega, by omega, a, ha, hx⟩

/-- The alignment patterns by zones (R112). -/
theorem exists_nearPair_iff {r c : Nat} :
    (∃ p, nearPair v p r c) ↔ (zone v r).aligns v (zone v c) = true := by
  have hw := symbolWidth_ge h1
  obtain ⟨-, -, -, -, -, hfr, hlr⟩ := zone_iff h1 r
  obtain ⟨-, -, -, -, -, hfc, hlc⟩ := zone_iff h1 c
  simp only [Zone.aligns, Bool.and_eq_true, Bool.not_eq_true', ← Bool.not_eq_true, decide_eq_true_eq,
    hfr, hlr, hfc, hlc]
  constructor
  · rintro ⟨⟨a, b⟩, h⟩
    obtain ⟨ha, hb⟩ := h.mem_centres
    have h2 := two_le_of_mem_alignmentCentres h1 ha
    have hra := alignmentCentres_range v h1 h40 _ ha
    have hrb := alignmentCentres_range v h1 h40 _ hb
    have hout := (mem_alignmentPairs_iff v h1 h40 _ ha _ hb).1 h.1
    obtain ⟨hr1, hr2, hc1, hc2⟩ := ringOf_le_iff.1 h.2
    rw [nearCentre_zone h1 h40 h2, nearCentre_zone h1 h40 h2]
    dsimp only at *
    exact ⟨⟨⟨⟨⟨h2, a, ha, hr2, hr1⟩, b, hb, hc2, hc1⟩, by omega⟩, by omega⟩, by omega⟩
  · rintro ⟨⟨⟨⟨⟨h2, hr⟩, hc⟩, hff⟩, hfl⟩, hlf⟩
    rw [nearCentre_zone h1 h40 h2] at hr hc
    obtain ⟨a, ha, hr⟩ := hr
    obtain ⟨b, hb, hc⟩ := hc
    exact ⟨(a, b), (mem_alignmentPairs_iff v h1 h40 a ha b hb).2 (by omega),
      ringOf_le_iff.2 ⟨hr.2, hr.1, hc.2, hc.1⟩⟩

/-- A cell of a skeleton is reserved by the zones of its row and its column. -/
theorem cellReserved_skeleton_eq {r c : Nat} (hr : r < symbolWidth v) (hc : c < symbolWidth v) :
    cellReserved (skeleton v r c) = (zone v r).reserves v (zone v c) := by
  have hw := symbolWidth_ge h1
  obtain ⟨hlow, hhigh, htiming, -⟩ := zone_iff h1 r
  obtain ⟨hlow', hhigh', htiming', -⟩ := zone_iff h1 c
  rw [cellReserved_skeleton hr hc, Bool.eq_iff_iff]
  simp only [skeletonDark, Option.isSome_or, Bool.or_eq_true, versionStep_isSome_iff h1,
    darkStep_isSome, formatStep_isSome, alignmentStep_isSome, exists_nearPair_iff h1 h40,
    finderStep_isSome hw hr hc, timingStep_isSome, formatFreeStep_isSome, Zone.reserves,
    Bool.and_eq_true, beq_iff_eq, hlow, hhigh, htiming, hlow', hhigh', htiming']
  by_cases hblock : (zone v r).blocks v (zone v c) = true
  · simp [hblock]
  by_cases halign : (zone v r).aligns v (zone v c) = true
  · simp [halign]
  simp only [hblock, halign, Bool.false_eq_true, false_or, or_false]
  omega

/-- Column 6 is a timing line (R113 (b)). -/
theorem cellReserved_of_column {r : Nat} (hr : r < symbolWidth v) :
    cellReserved (skeleton v r 6) = true := by
  have hw := symbolWidth_ge h1
  obtain ⟨-, -, htiming, -⟩ := zone_iff h1 6
  rw [cellReserved_skeleton_eq h1 h40 hr (by omega), htiming.2 rfl]
  simp [Zone.reserves]

end

/-! ### The counts of R113 -/

theorem sum_map_range (n : Nat) (f : Nat → Nat) :
    ((List.range n).map f).sum = ∑ x ∈ Finset.range n, f x := rfl

theorem length_filter_range (n : Nat) (p : Nat → Bool) :
    ((List.range n).filter p).length = ∑ x ∈ Finset.range n, if p x then 1 else 0 := by
  induction n with
  | zero => rfl
  | succ n ih =>
    rw [List.range_succ, List.filter_append, List.length_append, ih, Finset.sum_range_succ]
    cases hp : p n <;> simp [hp]

/-- Both laws of R113 on the number of free cells, by zones. -/
theorem freeCount_eq {v l : Nat} (h1 : 1 ≤ v) (h40 : v ≤ 40) (hl : l < 4) :
    freeCount v = 8 * (capacityRow v l).total + remainderBits v := by
  rw [← sum_freeZones v h1 h40 l hl, ← sum_zone h1 h40]
  unfold freeCount
  dsimp only
  rw [sum_map_range]
  refine Finset.sum_congr rfl fun r hr => ?_
  rw [← sum_zone h1 h40, length_filter_range]
  refine Finset.sum_congr rfl fun c hc => ?_
  have hres := cellReserved_skeleton_eq h1 h40 (Finset.mem_range.1 hr) (Finset.mem_range.1 hc)
  unfold skeleton at hres
  rw [hres]
  cases (zone v r).reserves v (zone v c) <;> rfl

/-- Every cell inside W is free or reserved. -/
theorem freeCount_add_reservedCount (v : Nat) :
    freeCount v + reservedCount v = symbolWidth v * symbolWidth v := by
  unfold freeCount reservedCount
  dsimp only
  rw [sum_map_range, sum_map_range, ← Finset.sum_add_distrib, Finset.sum_const_nat fun r _ => ?_,
    Finset.card_range]
  have hsplit := List.length_eq_length_filter_add (l := List.range (symbolWidth v))
    fun c => cellReserved (skeletonByte v (symbolWidth v) (alignmentPairs v) r c)
  rw [List.length_range] at hsplit
  omega

/-- Settles O24: the pairs of zones count the free cells, and each cell of W² is free or reserved. -/
theorem skeletonLaws : Obligations.SkeletonLaws := by
  unfold Obligations.SkeletonLaws
  intro v h1 h40
  have hw := symbolWidth_ge h1
  refine ⟨fun l hl => freeCount_eq h1 h40 hl, fun r hr => ?_, fun l hl => ?_, ?_⟩
  · exact cellReserved_of_column h1 h40 hr
  · have hfree := freeCount_eq h1 h40 hl
    have hsum := freeCount_add_reservedCount v
    omega
  · rw [skeleton_of_darkModule h1 (by omega) (by omega) rfl rfl, cellDark_cellByte]

end Sys2Proof.Machine
end

section
/-! PROOFS. The raw traversal (45_frame_placement.md section 3): its positions in order, numbered by the
column pair, the row and the column of the pair. -/

namespace Sys2Proof.Machine

open Sys2Proof

/-! ### Paths -/

section
variable {w : Nat}

/-- Each position of a path is the step from the one before it. -/
theorem getElem?_cursorPath_succ {bound i : Nat} {o : Option Cursor} {s : Cursor}
    (h : (cursorPath w bound o)[i]? = some s) (hi : i + 1 < bound) :
    (cursorPath w bound o)[i + 1]? = cursorStep w s := by
  induction bound generalizing i o with
  | zero => omega
  | succ n ih =>
    cases o with
    | none => simp [cursorPath] at h
    | some x =>
      rw [cursorPath] at h ⊢
      rw [List.getElem?_cons_succ]
      cases i with
      | zero =>
        obtain rfl : x = s := by simpa using h
        obtain ⟨k, rfl⟩ : ∃ k, n = k + 1 := ⟨n - 1, by omega⟩
        cases cursorStep w x <;> rfl
      | succ i => exact ih (by simpa using h) (by omega)

/-! ### The number of a position -/

/-- The place of a column's pair in the order W-1, W-3, …, 8, 5, 3, 1 (R115). -/
def pairIndex (w c : Nat) : Nat := if c < 6 then (w - 2 - c) / 2 else (w - 1 - c) / 2

/-- How many positions the traversal has before this one: two a row in each pair, the right one first. -/
def cursorIndex (w : Nat) (s : Cursor) : Nat :=
  2 * w * pairIndex w s.c + (2 * (if s.up then w - 1 - s.r else s.r) + if s.right then 0 else 1)

/-- A position of the traversal with the direction of its pair: the first pair goes up, and each pair the
other way than the one before it. -/
def inOrder (w : Nat) (s : Cursor) : Prop :=
  onTraversal w s ∧ (s.up = true ↔ pairIndex w s.c % 2 = 0)

theorem inOrder_cursorStart (hodd : w % 2 = 1) (hw : 9 ≤ w) : inOrder w (cursorStart w) := by
  refine ⟨onTraversal_cursorStart hodd hw, ?_⟩
  simp [cursorStart, pairIndex, show ¬ w - 1 < 6 by omega]

theorem cursorIndex_cursorStart (hw : 9 ≤ w) : cursorIndex w (cursorStart w) = 0 := by
  simp [cursorIndex, cursorStart, pairIndex, show ¬ w - 1 < 6 by omega]

/-- The column says which one of its pair it is. -/
theorem onTraversal.right_iff {s : Cursor} (hs : onTraversal w s) :
    s.right = true ↔ (8 ≤ s.c ∧ s.c % 2 = 0) ∨ (s.c ≤ 5 ∧ s.c % 2 = 1) := by
  obtain ⟨-, -, hcol⟩ := hs
  split at hcol
  · next hright => exact iff_of_true hright hcol
  · next hright => exact iff_of_false hright (by omega)

/-- The cell determines the position. -/
theorem inOrder.eq_of_cell {s t : Cursor} (hs : inOrder w s) (ht : inOrder w t) (hr : s.r = t.r)
    (hc : s.c = t.c) : s = t := by
  obtain ⟨r, c, up, right⟩ := s
  obtain ⟨r', c', up', right'⟩ := t
  dsimp only at hr hc
  subst hr hc
  have hup : up = up' := Bool.eq_iff_iff.2 (hs.2.trans ht.2.symm)
  have hright : right = right' := Bool.eq_iff_iff.2 (hs.1.right_iff.trans ht.1.right_iff.symm)
  rw [hup, hright]

/-- The two columns of a pair have one place (R115). -/
theorem pairIndex_succ (hodd : w % 2 = 1) {c : Nat} (hcol : (7 ≤ c ∧ c % 2 = 1) ∨ (c ≤ 4 ∧ c % 2 = 0)) :
    pairIndex w (c + 1) = pairIndex w c := by
  unfold pairIndex
  split_ifs <;> omega

/-- Along a pair the number grows by the two positions of a row. -/
theorem inOrder.nextRow (hodd : w % 2 = 1) {r r' c : Nat} {up : Bool} (hs : inOrder w ⟨r, c, up, false⟩)
    (hrow : if up then r = r' + 1 else r' = r + 1) (ht : onTraversal w ⟨r', c + 1, up, true⟩) :
    inOrder w ⟨r', c + 1, up, true⟩ ∧
      cursorIndex w ⟨r', c + 1, up, true⟩ = cursorIndex w ⟨r, c, up, false⟩ + 1 := by
  obtain ⟨⟨hr, -, hcol⟩, hup⟩ := hs
  dsimp only at hr hup
  have hpair := pairIndex_succ hodd hcol
  refine ⟨⟨ht, hpair ▸ hup⟩, ?_⟩
  simp only [cursorIndex, hpair, Bool.false_eq_true, if_false, if_true]
  cases up with
  | true =>
    simp only [if_true] at hrow ⊢
    omega
  | false =>
    simp only [Bool.false_eq_true, if_false] at hrow ⊢
    omega

/-- From the last row of a pair the next pair begins in the same row, in the other direction. -/
theorem inOrder.nextPair {r c c' : Nat} {up : Bool} (hs : inOrder w ⟨r, c, up, false⟩)
    (hrow : if up then r = 0 else r + 1 = w) (hpair : pairIndex w c' = pairIndex w c + 1)
    (ht : onTraversal w ⟨r, c', !up, true⟩) :
    inOrder w ⟨r, c', !up, true⟩ ∧
      cursorIndex w ⟨r, c', !up, true⟩ = cursorIndex w ⟨r, c, up, false⟩ + 1 := by
  obtain ⟨⟨hr, -, -⟩, hup⟩ := hs
  dsimp only at hr hup
  unfold inOrder
  simp only [cursorIndex, hpair, Nat.mul_succ, Bool.false_eq_true, if_false, if_true]
  cases up with
  | true =>
    simp only [Bool.not_true, Bool.false_eq_true, if_false, if_true, true_iff, false_iff] at hrow hup ⊢
    exact ⟨⟨ht, by omega⟩, by omega⟩
  | false =>
    simp only [Bool.not_false, Bool.false_eq_true, if_false, if_true, true_iff, false_iff] at hrow hup ⊢
    exact ⟨⟨ht, by omega⟩, by omega⟩

/-- Where the step finds no next row, the row is the last of its pair. -/
theorem lastRow_of_not {r : Nat} {up : Bool} (hr : r < w) (hup : ¬ (up = true ∧ 1 ≤ r ∧ r - 1 < w))
    (hdown : ¬ (up = false ∧ r + 1 < w)) : if up then r = 0 else r + 1 = w := by
  cases up with
  | true =>
    simp only [true_and] at hup
    simp only [if_true]
    omega
  | false =>
    simp only [true_and] at hdown
    simp only [Bool.false_eq_true, if_false]
    omega

/-- A step goes to the next number (R115). -/
theorem inOrder.step (hodd : w % 2 = 1) (hw : 9 ≤ w) {s t : Cursor} (hs : inOrder w s)
    (h : cursorStep w s = some t) : inOrder w t ∧ cursorIndex w t = cursorIndex w s + 1 := by
  have ht := onTraversal_cursorStep hodd hw hs.1 h
  obtain ⟨r, c, up, right⟩ := s
  have ⟨⟨hr, hc, hcol⟩, hup⟩ := hs
  dsimp only at hr hc hcol hup
  cases right with
  | true =>
    obtain rfl : (⟨r, c - 1, up, false⟩ : Cursor) = t := by simpa [cursorStep] using h
    obtain ⟨d, rfl⟩ : ∃ d, c = d + 1 := ⟨c - 1, by simp only [if_true] at hcol; omega⟩
    have hpair : pairIndex w (d + 1) = pairIndex w d := pairIndex_succ hodd ht.2.2
    exact ⟨⟨ht, by simpa [hpair] using hup⟩, by simp [cursorIndex, hpair, Nat.add_assoc]⟩
  | false =>
    simp only [Bool.false_eq_true, if_false] at hcol
    simp only [cursorStep, Bool.false_eq_true, if_false] at h
    split_ifs at h with hrow hrow' hend hsix <;> cases h
    · obtain ⟨rfl, h0, -⟩ := hrow
      exact hs.nextRow hodd (by simp only [if_true]; omega) ht
    · obtain ⟨rfl, -⟩ := hrow'
      exact hs.nextRow hodd rfl ht
    · refine hs.nextPair (lastRow_of_not hr hrow hrow') ?_ ht
      unfold pairIndex
      split_ifs <;> omega
    · refine hs.nextPair (lastRow_of_not hr hrow hrow') ?_ ht
      unfold pairIndex
      split_ifs <;> omega

/-- The column pairs number (W-1)/2 (R115). -/
theorem pairIndex_le (hodd : w % 2 = 1) {c : Nat} : pairIndex w c ≤ (w - 3) / 2 := by
  unfold pairIndex
  split_ifs <;> omega

/-- The positions of the pairs before the last and of the last one. -/
theorem positions_eq (hodd : w % 2 = 1) (hw : 9 ≤ w) : w * (w - 1) = 2 * w * ((w - 3) / 2) + 2 * w := by
  obtain ⟨k, rfl⟩ : ∃ k, w = 2 * k + 3 := ⟨(w - 3) / 2, by omega⟩
  rw [show 2 * k + 3 - 1 = 2 * k + 2 by omega, show (2 * k + 3 - 3) / 2 = k by omega]
  ring

theorem inOrder.cursorIndex_lt (hodd : w % 2 = 1) (hw : 9 ≤ w) {s : Cursor} (hs : inOrder w s) :
    cursorIndex w s < w * (w - 1) := by
  obtain ⟨⟨hr, -, -⟩, -⟩ := hs
  have hpair := Nat.mul_le_mul_left (2 * w) (pairIndex_le hodd (c := s.c))
  rw [positions_eq hodd hw]
  unfold cursorIndex
  split_ifs <;> omega

/-- END comes behind the last number (R115). -/
theorem inOrder.last (hodd : w % 2 = 1) (hw : 9 ≤ w) {s : Cursor} (hs : inOrder w s)
    (h : cursorStep w s = none) : cursorIndex w s + 1 = w * (w - 1) := by
  obtain ⟨r, c, up, right⟩ := s
  obtain ⟨⟨hr, -, -⟩, -⟩ := hs
  dsimp only at hr
  simp only [cursorStep] at h
  split_ifs at h with hright hrow hrow' hend
  have hpair : pairIndex w c = (w - 3) / 2 := by
    unfold pairIndex
    split_ifs <;> omega
  have hlast : (if up then w - 1 - r else r) = w - 1 := by
    have hlastRow := lastRow_of_not hr hrow hrow'
    split_ifs at hlastRow ⊢ <;> omega
  rw [positions_eq hodd hw]
  simp only [cursorIndex, hpair, hlast, hright, Bool.false_eq_true, if_false]
  omega

theorem cursorPath_none (bound : Nat) : cursorPath w bound none = [] := by
  cases bound <;> rfl

/-- A path numbers its positions one after the other, up to END. -/
theorem map_cursorIndex_cursorPath (hodd : w % 2 = 1) (hw : 9 ≤ w) {bound n : Nat} {s : Cursor}
    (hs : inOrder w s) (hn : cursorIndex w s + (n + 1) = w * (w - 1)) (hbound : n < bound) :
    (cursorPath w bound (some s)).map (cursorIndex w) = List.range' (cursorIndex w s) (n + 1) := by
  induction n generalizing bound s with
  | zero =>
    obtain ⟨k, rfl⟩ : ∃ k, bound = k + 1 := ⟨bound - 1, by omega⟩
    cases hstep : cursorStep w s with
    | none =>
      rw [cursorPath, hstep, cursorPath_none]
      rfl
    | some t =>
      obtain ⟨ht, hindex⟩ := hs.step hodd hw hstep
      have := ht.cursorIndex_lt hodd hw
      omega
  | succ n ih =>
    obtain ⟨k, rfl⟩ : ∃ k, bound = k + 1 := ⟨bound - 1, by omega⟩
    cases hstep : cursorStep w s with
    | none =>
      have := hs.last hodd hw hstep
      omega
    | some t =>
      obtain ⟨ht, hindex⟩ := hs.step hodd hw hstep
      rw [cursorPath, hstep, List.map_cons, ih ht (by omega) (by omega), hindex, ← List.range'_succ]

theorem inOrder_of_cursorPath (hodd : w % 2 = 1) (hw : 9 ≤ w) {bound : Nat} {s : Cursor}
    (hs : inOrder w s) : ∀ t ∈ cursorPath w bound (some s), inOrder w t := by
  induction bound generalizing s with
  | zero => exact List.forall_mem_nil _
  | succ n ih =>
    rw [cursorPath]
    refine List.forall_mem_cons.2 ⟨hs, ?_⟩
    cases hstep : cursorStep w s with
    | none => simp [cursorPath_none]
    | some t => exact ih (hs.step hodd hw hstep).1

/-! ### The whole traversal -/

variable (hodd : w % 2 = 1) (hw : 9 ≤ w)
include hodd hw

theorem map_cursorIndex_zigzag : (zigzag w).map (cursorIndex w) = List.range (w * (w - 1)) := by
  have hpos : 0 < w * (w - 1) := Nat.mul_pos (by omega) (by omega)
  have hlt : w * (w - 1) ≤ w * w := Nat.mul_le_mul_left w (by omega)
  have hmap := map_cursorIndex_cursorPath hodd hw (bound := pathBound w) (n := w * (w - 1) - 1)
    (inOrder_cursorStart hodd hw) (by rw [cursorIndex_cursorStart hw]; omega)
    (by unfold pathBound; omega)
  rwa [cursorIndex_cursorStart hw, Nat.sub_add_cancel hpos, ← List.range_eq_range'] at hmap

theorem length_zigzag : (zigzag w).length = w * (w - 1) := by
  simpa using congrArg List.length (map_cursorIndex_zigzag hodd hw)

theorem inOrder_of_zigzag : ∀ s ∈ zigzag w, inOrder w s :=
  inOrder_of_cursorPath hodd hw (inOrder_cursorStart hodd hw)

theorem nodup_cells_zigzag : ((zigzag w).map fun s => (s.r, s.c)).Nodup := by
  have hnodup : (zigzag w).Nodup :=
    List.Nodup.of_map (cursorIndex w) (map_cursorIndex_zigzag hodd hw ▸ List.nodup_range)
  refine List.Nodup.map_on (fun s hs t ht hcell => ?_) hnodup
  obtain ⟨hr, hc⟩ := Prod.mk.inj hcell
  exact (inOrder_of_zigzag hodd hw s hs).eq_of_cell (inOrder_of_zigzag hodd hw t ht) hr hc

theorem cell_of_zigzag {s : Cursor} (hs : s ∈ zigzag w) : s.r < w ∧ s.c < w ∧ s.c ≠ 6 := by
  obtain ⟨hr, hc, hcol⟩ := onTraversal_of_zigzag hodd hw hs
  refine ⟨hr, hc, ?_⟩
  split at hcol <;> omega

/-- The cells of the traversal: as many as there are outside column 6, and no two the same. -/
theorem toFinset_cells_zigzag :
    ((zigzag w).map fun s => (s.r, s.c)).toFinset =
      Finset.range w ×ˢ (Finset.range w).erase 6 := by
  refine Finset.eq_of_subset_of_card_le (fun p hp => ?_) ?_
  · obtain ⟨s, hs, rfl⟩ := List.mem_map.1 (List.mem_toFinset.1 hp)
    obtain ⟨hr, hc, h6⟩ := cell_of_zigzag hodd hw hs
    simp [hr, hc, h6]
  · rw [List.toFinset_card_of_nodup (nodup_cells_zigzag hodd hw), List.length_map,
      length_zigzag hodd hw, Finset.card_product, Finset.card_erase_of_mem (by simp; omega),
      Finset.card_range]

theorem exists_mem_zigzag {r c : Nat} (hr : r < w) (hc : c < w) (h6 : c ≠ 6) :
    ∃ s ∈ zigzag w, s.r = r ∧ s.c = c := by
  have hmem : (r, c) ∈ ((zigzag w).map fun s => (s.r, s.c)).toFinset := by
    rw [toFinset_cells_zigzag hodd hw]
    simp [hr, hc, h6]
  obtain ⟨s, hs, hcell⟩ := List.mem_map.1 (List.mem_toFinset.1 hmem)
  exact ⟨s, hs, Prod.mk.inj hcell⟩

theorem cursorStep_zigzag {i : Nat} {s : Cursor} (h : (zigzag w)[i]? = some s) :
    cursorStep w s = (zigzag w)[i + 1]? := by
  have hi := (List.getElem?_eq_some_iff.1 h).1
  have hlt : w * (w - 1) < w * w := Nat.mul_lt_mul_of_pos_left (by omega) (by omega)
  rw [length_zigzag hodd hw] at hi
  exact (getElem?_cursorPath_succ h (by unfold pathBound; omega)).symm

end

theorem symbolWidth_odd (v : Nat) : symbolWidth v % 2 = 1 := by
  unfold symbolWidth
  omega

/-- Settles O26: the positions are numbered from 0 to W·(W-1) - 1 in the order of the steps, and a position
is determined by its cell. -/
theorem zigzagVisitsEachCellOnce : Obligations.ZigzagVisitsEachCellOnce := by
  unfold Obligations.ZigzagVisitsEachCellOnce
  intro v h1 _
  have hodd := symbolWidth_odd v
  have hw : 9 ≤ symbolWidth v := Nat.le_trans (by decide) (symbolWidth_ge h1)
  refine ⟨length_zigzag hodd hw, nodup_cells_zigzag hodd hw, fun s => cell_of_zigzag hodd hw,
    fun r c => exists_mem_zigzag hodd hw, ?_, fun i s => cursorStep_zigzag hodd hw⟩
  obtain ⟨k, hk⟩ : ∃ k, pathBound (symbolWidth v) = k + 1 :=
    Nat.exists_eq_succ_of_ne_zero (Nat.mul_ne_zero (by omega) (by omega))
  unfold zigzag
  rw [hk]
  rfl

/-! ### The free cells of a fresh skeleton -/

theorem isFree_writeFrame (m : Memory) (cell : Nat → Nat → Byte) {s : Cursor} (hr : s.r < 177)
    (hc : s.c < 177) : isFree (m.writeFrame cell) s = !cellReserved (cell s.r s.c) := by
  rw [isFree, read_writeFrame_cell m cell hr hc]

theorem freeCount_eq_card (v : Nat) :
    freeCount v = ((Finset.range (symbolWidth v) ×ˢ Finset.range (symbolWidth v)).filter fun p =>
      !cellReserved (skeleton v p.1 p.2)).card := by
  rw [Finset.card_filter, Finset.sum_product]
  unfold freeCount
  dsimp only
  rw [sum_map_range]
  refine Finset.sum_congr rfl fun r _ => ?_
  rw [length_filter_range]
  rfl

/-- The traversal passes each free cell of a skeleton once, since none lies in column 6 (R113 (b)). -/
theorem length_filter_zigzag {v : Nat} (h1 : 1 ≤ v) (h40 : v ≤ 40) (m : Memory) :
    ((zigzag (symbolWidth v)).filter (isFree (m.writeFrame (skeleton v)))).length = freeCount v := by
  have hodd := symbolWidth_odd v
  have hw : 9 ≤ symbolWidth v := Nat.le_trans (by decide) (symbolWidth_ge h1)
  have h177 : symbolWidth v ≤ 177 := by unfold symbolWidth; omega
  have hfree : (zigzag (symbolWidth v)).filter (isFree (m.writeFrame (skeleton v))) =
      (zigzag (symbolWidth v)).filter
        ((fun p : Nat × Nat => !cellReserved (skeleton v p.1 p.2)) ∘ fun s => (s.r, s.c)) := by
    refine List.filter_congr fun s hs => ?_
    obtain ⟨hr, hc, -⟩ := cell_of_zigzag hodd hw hs
    exact isFree_writeFrame m _ (by omega) (by omega)
  have hcells : ((zigzag (symbolWidth v)).map fun s => (s.r, s.c)).toFinset.filter
      (fun p => !cellReserved (skeleton v p.1 p.2)) =
      (Finset.range (symbolWidth v) ×ˢ Finset.range (symbolWidth v)).filter
        fun p => !cellReserved (skeleton v p.1 p.2) := by
    rw [toFinset_cells_zigzag hodd hw]
    ext ⟨r, c⟩
    simp only [Finset.mem_filter, Finset.mem_product, Finset.mem_erase, Finset.mem_range]
    constructor
    · rintro ⟨⟨hr, -, hc⟩, hp⟩
      exact ⟨⟨hr, hc⟩, hp⟩
    · rintro ⟨⟨hr, hc⟩, hp⟩
      refine ⟨⟨hr, ?_, hc⟩, hp⟩
      rintro rfl
      simp [cellReserved_of_column h1 h40 hr] at hp
  rw [hfree, ← List.length_map (f := fun s : Cursor => (s.r, s.c)), ← List.filter_map,
    ← List.toFinset_card_of_nodup ((nodup_cells_zigzag hodd hw).filter _), List.toFinset_filter,
    hcells, freeCount_eq_card]

/-- Settles O29: the traversal meets the free cells that R113 counts. -/
theorem freshSkeletonHoldsTheWholeStream : Obligations.FreshSkeletonHoldsTheWholeStream := by
  unfold Obligations.FreshSkeletonHoldsTheWholeStream
  intro v l m h1 h40 hl
  rw [length_filter_zigzag h1 h40, freeCount_eq h1 h40 hl]

end Sys2Proof.Machine
end

section
/-! PROOFS. FRAME_INIT and the filler cursor: the skeleton in every cell, and what a search for free cells
finds on a path whose first part is written. -/

namespace Sys2Proof.Machine

open Sys2Proof

/-! ### FRAME_INIT -/

theorem word_fillPosZero : FillPos.zero.word = 0#32 := by decide

/-- The frame of FRAME_INIT (R117). -/
theorem regsKept_frameInit (s : State) (m : Memory) (version : BitVec 6) (bits : BitVec 18) :
    regsKept [.status, .errcode, .frameVersion, .versionBits, .maskCur, .formatBits, .fillPos] s
      ({ s with
        mem := m
        frameVersion := version
        versionBits := bits
        maskCur := 0
        formatBits := 0
        fillPos := .zero
        frameStage := .skeleton } : State).complete := by
  intro r hr
  cases r with
  | status | errcode | frameVersion | versionBits | maskCur | formatBits | fillPos => simp at hr
  | _ => rfl

theorem bytesKeptBut_writeFrame {s t : State} {cell : Nat → Nat → Byte}
    (h : t.mem = s.mem.writeFrame cell) : bytesKeptBut inFrame s t := by
  intro a ha
  unfold inFrame at ha
  rw [h, read_writeFrame_outside s.mem cell (by omega)]

theorem execFrameInit_of_valid {s : State} (hv : s.specValid = true) :
    execFrameInit s =
      .next ({ s with
        mem := s.mem.writeFrame (skeleton s.spec.version.toNat)
        frameVersion := s.spec.version
        versionBits := versionBitsOf s.spec.version.toNat
        maskCur := 0
        formatBits := 0
        fillPos := .zero
        frameStage := .skeleton } : State).complete := by
  rw [execFrameInit, hv]
  rfl

theorem execFrameInit_of_notReady {s : State} (hv : s.specValid = false) :
    execFrameInit s = .next (s.fail .notReady) := by
  rw [execFrameInit, hv]
  rfl

/-- Settles O23: the frame store takes the skeleton whole, and the registers written are the frame's. -/
theorem frameInitBuildsSkeleton : Obligations.FrameInitBuildsSkeleton := by
  unfold Obligations.FrameInitBuildsSkeleton
  refine ⟨encodedAs_encode .frameInit, fun s =>
    ⟨fun hv => ⟨_, execFrameInit_of_valid hv, completedFrom_complete _, fun r hr c hc => ?_,
      bytesKeptBut_writeFrame rfl, rfl, rfl, rfl, rfl,
      word_fillPosZero, rfl, hv, rfl,
      regsKept_frameInit s _ _ _, ⟨rfl, rfl, rfl, rfl⟩⟩, execFrameInit_of_notReady⟩⟩
  exact read_writeFrame_cell s.mem _ hr hc

/-! ### FILL_RESET -/

/-- The frame of a command that writes FILL_POS alone (R118, R119). -/
theorem regsKept_fillPos (s : State) (p : FillPos) :
    regsKept [.status, .errcode, .fillPos] s ({ s with fillPos := p } : State).complete := by
  intro r hr
  cases r with
  | status | errcode | fillPos => simp at hr
  | _ => rfl

/-- Settles O27: FILL_RESET writes FILL_POS alone. -/
theorem fillResetRewindsCursor : Obligations.FillResetRewindsCursor := by
  unfold Obligations.FillResetRewindsCursor
  exact ⟨encodedAs_encode .fillReset, fun s =>
    ⟨({ s with fillPos := .zero } : State).complete, rfl, completedFrom_complete _, ⟨rfl, rfl⟩,
      word_fillPosZero, rfl, regsKept_fillPos s .zero, fun _ => rfl, ⟨rfl, rfl, rfl, rfl⟩⟩⟩

/-! ### Searches for free cells (R116) -/

theorem isFree_of_freeAt {m : Memory} {c : Cursor} (h : freeAt m c) : isFree m c = true := by
  obtain ⟨b, hb, hfree⟩ := h
  simp [isFree, hb, hfree]

theorem isFree_of_reservedAt {m : Memory} {c : Cursor} (h : reservedAt m c) : isFree m c = false := by
  obtain ⟨b, hb, hres⟩ := h
  simp [isFree, hb, hres]

theorem isSome_of_reservedAt {m : Memory} {c : Cursor} (h : reservedAt m c) :
    (m.read (cellAddr c.r c.c)).isSome := by
  obtain ⟨b, hb, -⟩ := h
  simp [hb]

/-- A written cell that is not free is reserved. -/
theorem freeAt_or_reservedAt {m : Memory} {c : Cursor} (h : (m.read (cellAddr c.r c.c)).isSome) :
    freeAt m c ∨ reservedAt m c := by
  obtain ⟨b, hb⟩ := Option.isSome_iff_exists.1 h
  cases hres : cellReserved b with
  | false => exact .inl ⟨b, hb, hres⟩
  | true => exact .inr ⟨b, hb, hres⟩

/-- A search that has already found some cells. -/
def FreeCells.prepend (cells : List Cursor) : FreeCells → FreeCells
  | .found more => .found (cells ++ more)
  | .exhausted => .exhausted
  | .unwritten => .unwritten

theorem FreeCells.prepend_nil (x : FreeCells) : x.prepend [] = x := by
  cases x <;> rfl

theorem FreeCells.prepend_cons (c : Cursor) (cells : List Cursor) (x : FreeCells) :
    x.prepend (c :: cells) = (x.prepend cells).prepend [c] := by
  cases x <;> rfl

@[simp] theorem firstFree_zero (m : Memory) (path : List Cursor) :
    firstFree m 0 path = .found [] := by
  cases path <;> rfl

theorem firstFree_of_unwritten {m : Memory} {c : Cursor} (h : m.read (cellAddr c.r c.c) = none) (n : Nat)
    (path : List Cursor) : firstFree m (n + 1) (c :: path) = .unwritten := by
  rw [firstFree, h]

theorem firstFree_of_reservedAt {m : Memory} {c : Cursor} (h : reservedAt m c) (n : Nat)
    (path : List Cursor) : firstFree m (n + 1) (c :: path) = firstFree m (n + 1) path := by
  obtain ⟨b, hb, hres⟩ := h
  simp only [firstFree, hb, hres, if_true]

theorem firstFree_of_freeAt {m : Memory} {c : Cursor} (h : freeAt m c) (n : Nat) (path : List Cursor) :
    firstFree m (n + 1) (c :: path) = (firstFree m n path).prepend [c] := by
  obtain ⟨b, hb, hfree⟩ := h
  simp only [firstFree, hb, hfree]
  cases firstFree m n path <;> rfl

/-- Over written cells the search takes the free ones, as many as it still needs, and goes on behind them
for the rest. -/
theorem firstFree_append {m : Memory} {pre : List Cursor} (n : Nat) (post : List Cursor)
    (h : ∀ x ∈ pre, (m.read (cellAddr x.r x.c)).isSome) :
    firstFree m n (pre ++ post) = (firstFree m (n - (pre.filter (isFree m)).length) post).prepend
      ((pre.filter (isFree m)).take n) := by
  induction pre generalizing n with
  | nil => simp [FreeCells.prepend_nil]
  | cons x pre ih =>
    obtain ⟨hx, hpre⟩ := List.forall_mem_cons.1 h
    cases n with
    | zero => simp [FreeCells.prepend_nil]
    | succ n =>
      rw [List.cons_append]
      rcases freeAt_or_reservedAt hx with hfree | hres
      · rw [firstFree_of_freeAt hfree, ih n hpre, List.filter_cons_of_pos (isFree_of_freeAt hfree),
          List.length_cons, Nat.add_sub_add_right, List.take_succ_cons, ← FreeCells.prepend_cons]
      · rw [firstFree_of_reservedAt hres, ih (n + 1) hpre,
          List.filter_cons_of_neg (by simp [isFree_of_reservedAt hres])]

section
variable {m : Memory} {n : Nat} {path : List Cursor}
  (h : ∀ x ∈ path, (m.read (cellAddr x.r x.c)).isSome)
include h

theorem firstFree_of_enough (hn : n ≤ (path.filter (isFree m)).length) :
    firstFree m n path = .found ((path.filter (isFree m)).take n) := by
  have happ := firstFree_append n [] h
  rwa [Nat.sub_eq_zero_of_le hn, firstFree_zero, List.append_nil, FreeCells.prepend,
    List.append_nil] at happ

theorem firstFree_of_tooFew (hn : (path.filter (isFree m)).length < n) :
    firstFree m n path = .exhausted := by
  have happ := firstFree_append n [] h
  obtain ⟨k, hk⟩ := Nat.exists_eq_succ_of_ne_zero (Nat.sub_ne_zero_of_lt hn)
  rwa [hk, List.append_nil] at happ

/-- An unwritten cell stops a search that reaches it with cells still to find (R15). -/
theorem firstFree_append_of_unwritten (hn : (path.filter (isFree m)).length < n) {c : Cursor}
    (hc : m.read (cellAddr c.r c.c) = none) (post : List Cursor) :
    firstFree m n (path ++ c :: post) = .unwritten := by
  obtain ⟨k, hk⟩ := Nat.exists_eq_succ_of_ne_zero (Nat.sub_ne_zero_of_lt hn)
  rw [firstFree_append n _ h, hk, firstFree_of_unwritten hc]
  rfl

end

/-! ### FILL_NEXT -/

section
variable {s : State}

theorem execFillNext_of_notReady (h : s.frameStage = .none) :
    execFillNext s = .next (s.fail .notReady) := if_pos h

variable (hs : s.frameStage ≠ .none)
include hs

theorem execFillNext_of_found {c : Cursor} (h : firstFree s.mem 1 (fillerPath s) = .found [c]) :
    execFillNext s = .next ({ s with fillPos := c.fillPos } : State).complete := by
  unfold fillerPath at h
  rw [execFillNext, if_neg hs]
  simp only [h]
  rfl

theorem execFillNext_of_exhausted (h : firstFree s.mem 1 (fillerPath s) = .exhausted) :
    execFillNext s = .next (s.fail .cursorExhausted) := by
  unfold fillerPath at h
  rw [execFillNext, if_neg hs]
  simp only [h]
  rfl

theorem execFillNext_of_unwritten (h : firstFree s.mem 1 (fillerPath s) = .unwritten) :
    execFillNext s = .fault .unwrittenRead := by
  unfold fillerPath at h
  rw [execFillNext, if_neg hs]
  simp only [h]

end

theorem filter_isFree_of_reservedAt {m : Memory} {path : List Cursor} (h : ∀ x ∈ path, reservedAt m x) :
    path.filter (isFree m) = [] :=
  List.filter_eq_nil_iff.2 fun x hx => by simp [isFree_of_reservedAt (h x hx)]

/-- Settles O28: the reserved cells give nothing to the search for one free cell, so the first cell behind
them, or END, decides how FILL_NEXT ends. -/
theorem fillNextReportsNextFreeCell : Obligations.FillNextReportsNextFreeCell := by
  unfold Obligations.FillNextReportsNextFreeCell
  refine ⟨encodedAs_encode .fillNext, fun s => execFillNext_of_notReady, fun s hs =>
    ⟨fun pre post c hpath hpre hc => ?_, fun hall => ?_, fun pre post c hpath hpre hc => ?_⟩⟩
  · have hfound : firstFree s.mem 1 (fillerPath s) = .found [c] := by
      rw [hpath, firstFree_append 1 _ fun x hx => isSome_of_reservedAt (hpre x hx),
        filter_isFree_of_reservedAt hpre, List.length_nil, firstFree_of_freeAt hc, firstFree_zero]
      rfl
    exact ⟨_, execFillNext_of_found hs hfound, completedFrom_complete _, ⟨rfl, rfl⟩, rfl, rfl,
      regsKept_fillPos s _, fun _ => rfl, ⟨rfl, rfl, rfl, rfl⟩⟩
  · refine execFillNext_of_exhausted hs
      (firstFree_of_tooFew (fun x hx => isSome_of_reservedAt (hall x hx)) ?_)
    rw [filter_isFree_of_reservedAt hall]
    exact Nat.one_pos
  · refine execFillNext_of_unwritten hs ?_
    rw [hpath, firstFree_append_of_unwritten (fun x hx => isSome_of_reservedAt (hpre x hx)) _ hc]
    rw [filter_isFree_of_reservedAt hpre]
    exact Nat.one_pos

/-! ### The errors of FRAME_FILL -/

section
variable {s : State}

theorem execFrameFill_of_notReady
    (h : s.frameStage = .none ∨ s.specValid = false ∨ s.frameVersion ≠ s.spec.version) :
    execFrameFill s = .next (s.fail .notReady) := by
  unfold execFrameFill
  split_ifs with h1 h2
  · rfl
  · rfl
  · tauto

/-- The checks that FRAME_FILL makes before it reads (R120), passed. -/
theorem not_none_or_invalid (hstage : s.frameStage ≠ .none) (hvalid : s.specValid = true) :
    ¬ (s.frameStage = .none ∨ s.specValid = false) := by
  simp [hstage, hvalid]

variable (hstage : s.frameStage ≠ .none) (hvalid : s.specValid = true)
  (hver : s.frameVersion = s.spec.version)
include hstage hvalid hver

theorem execFrameFill_of_unwrittenStream
    (h : ∃ i < s.spec.totalCw.toNat, s.mem.read (streamBase + i) = none) :
    execFrameFill s = .fault .unwrittenRead := by
  obtain ⟨i, hi, hnone⟩ := h
  have hread : s.mem.readRange streamBase s.spec.totalCw.toNat = none := by
    rw [← Option.not_isSome_iff_eq_none, readRange_isSome_iff]
    exact fun hall => by simpa [hnone] using hall i hi
  rw [execFrameFill, if_neg (not_none_or_invalid hstage hvalid), if_neg (not_not.2 hver), hread,
    withRead_none]

section
variable (hstream : ∀ i < s.spec.totalCw.toNat, (s.mem.read (streamBase + i)).isSome)
include hstream

theorem execFrameFill_of_exhausted (h : fillCells s = .exhausted) :
    execFrameFill s = .next (s.fail .cursorExhausted) := by
  obtain ⟨stream, hread⟩ := Option.isSome_iff_exists.1 (readRange_isSome_iff.2 hstream)
  rw [execFrameFill, if_neg (not_none_or_invalid hstage hvalid), if_neg (not_not.2 hver), hread,
    withRead_some, h]
  rfl

theorem execFrameFill_of_unwrittenCell (h : fillCells s = .unwritten) :
    execFrameFill s = .fault .unwrittenRead := by
  obtain ⟨stream, hread⟩ := Option.isSome_iff_exists.1 (readRange_isSome_iff.2 hstream)
  rw [execFrameFill, if_neg (not_none_or_invalid hstage hvalid), if_neg (not_not.2 hver), hread,
    withRead_some, h]

end
end

/-- FRAME_FILL searches the whole traversal (R120). -/
theorem fillCells_eq (s : State) :
    fillCells s = firstFree s.mem (8 * s.spec.totalCw.toNat + s.spec.remBits.toNat)
      (zigzag (frameWidth s)) := rfl

/-- Settles O31: each ending is the first check or read that stops FRAME_FILL. -/
theorem frameFillErrorsInOrder : Obligations.FrameFillErrorsInOrder := by
  unfold Obligations.FrameFillErrorsInOrder
  refine ⟨encodedAs_encode .frameFill, fun s => ⟨execFrameFill_of_notReady,
    fun hstage hvalid hver hstream hcells hfew => ?_, execFrameFill_of_unwrittenStream,
    fun pre post c hstage hvalid hver hstream hpath hpre hfew hc => ?_⟩⟩
  · refine execFrameFill_of_exhausted hstage hvalid hver hstream ?_
    rw [fillCells_eq, firstFree_of_tooFew hcells hfew]
  · refine execFrameFill_of_unwrittenCell hstage hvalid hver hstream ?_
    rw [fillCells_eq, hpath, firstFree_append_of_unwritten hpre hfew hc]

end Sys2Proof.Machine
end

section
/-! PROOFS. FRAME_FILL: the bits of the stream in the free cells of the traversal, in order. -/

namespace Sys2Proof.Machine

open Sys2Proof

/-! ### The placement bits (R114) -/

theorem getElem?_codewordBits (b : Byte) {i : Nat} (hi : i < 8) :
    (codewordBits b)[i]? = some (b.getLsbD (7 - i)) := by
  interval_cases i <;> rfl

theorem placementBits_cons (b : Byte) (stream : List Byte) (remainder : Nat) :
    placementBits (b :: stream) remainder = codewordBits b ++ placementBits stream remainder := by
  simp [placementBits]

/-- The bits of each codeword from bit 7 down, then zeros. -/
theorem getElem?_placementBits {stream : List Byte} {remainder i : Nat}
    (hi : i < 8 * stream.length + remainder) :
    (placementBits stream remainder)[i]? =
      some ((stream.getD (i / 8) 0#8).getLsbD (7 - i % 8)) := by
  induction stream generalizing i with
  | nil =>
    rw [List.length_nil, Nat.mul_zero, Nat.zero_add] at hi
    simp [placementBits, hi]
  | cons b stream ih =>
    rw [placementBits_cons]
    have hlen : (codewordBits b).length = 8 := rfl
    rcases Nat.lt_or_ge i 8 with h8 | h8
    · rw [List.getElem?_append_left (by omega), getElem?_codewordBits b h8, Nat.div_eq_of_lt h8,
        Nat.mod_eq_of_lt h8, List.getD_cons_zero]
    · obtain ⟨k, rfl⟩ := Nat.exists_eq_add_of_le' h8
      rw [List.length_cons] at hi
      rw [List.getElem?_append_right (by omega), hlen, Nat.add_sub_cancel, ih (by omega),
        Nat.add_div_right k (by decide), Nat.add_mod_right, List.getD_cons_succ]

/-! ### The cells written (R120) -/

/-- Of cells at different addresses each keeps the bit it is given. -/
theorem read_placeBits {m : Memory} {cells : List Cursor} {bits : List Bool} (hm : m.wf)
    (hnodup : (cells.map fun s => cellAddr s.r s.c).Nodup) {i : Nat} {c : Cursor} {b : Bool}
    (hc : cells[i]? = some c) (hb : bits[i]? = some b) :
    (placeBits m cells bits).read (cellAddr c.r c.c) = some (cellByte b false) := by
  induction cells generalizing m bits i with
  | nil => cases hc
  | cons x cells ih =>
    obtain ⟨hx, hnodup⟩ := List.nodup_cons.1 hnodup
    cases bits with
    | nil => cases hb
    | cons y bits =>
      have hwrite : placeBits m (x :: cells) (y :: bits) =
        placeBits (m.write (cellAddr x.r x.c) (cellByte y false)) cells bits := rfl
      rw [hwrite]
      cases i with
      | zero =>
        obtain rfl : x = c := Option.some.inj hc
        obtain rfl : y = b := Option.some.inj hb
        rw [read_placeBits_ne cells bits (Memory.wf_write _ _ hm) fun s hs heq =>
          hx (List.mem_map.2 ⟨s, hs, heq⟩), Memory.read_write_same m _ _ hm]
      | succ i => exact ih (Memory.wf_write _ _ hm) hnodup hc hb

/-- The positions of a traversal stand at different addresses (R40). -/
theorem nodup_cellAddr_zigzag {w : Nat} (hodd : w % 2 = 1) (hw : 9 ≤ w) (h177 : w ≤ 177) :
    ((zigzag w).map fun s => cellAddr s.r s.c).Nodup := by
  refine List.Nodup.map_on (fun s hs t ht haddr => ?_) (List.Nodup.of_map _ (nodup_cells_zigzag hodd hw))
  obtain ⟨-, hsc, -⟩ := cell_of_zigzag hodd hw hs
  obtain ⟨-, htc, -⟩ := cell_of_zigzag hodd hw ht
  obtain ⟨hr, hc⟩ := cellAddr_inj (by omega) (by omega) haddr
  exact (inOrder_of_zigzag hodd hw s hs).eq_of_cell (inOrder_of_zigzag hodd hw t ht) hr hc

/-- The last cell placed (R120). -/
theorem getLastD_map_take {α β : Type} {f : α → β} {l : List α} {n : Nat} {x : α} (d : β)
    (h : l[n - 1]? = some x) (hn : 1 ≤ n) : ((l.take n).map f).getLastD d = f x := by
  rw [List.getLastD_eq_getLast?, List.getLast?_map, List.getLast?_take, if_neg (by omega), h]
  rfl

/-! ### FRAME_FILL -/

/-- The frame of FRAME_FILL (R120). -/
theorem regsKept_frameFill (s : State) (m : Memory) (p : FillPos) :
    regsKept [.status, .errcode, .fillPos, .maskCur, .formatBits] s
      ({ s with mem := m, fillPos := p, maskCur := 0, formatBits := 0, frameStage := .filled } :
        State).complete := by
  intro r hr
  cases r with
  | status | errcode | fillPos | maskCur | formatBits => simp at hr
  | _ => rfl

theorem execFrameFill_of_found {s : State} {stream : List Byte} {cells : List Cursor}
    (hstage : s.frameStage ≠ .none) (hvalid : s.specValid = true) (hver : s.frameVersion = s.spec.version)
    (hread : s.mem.readRange streamBase s.spec.totalCw.toNat = some stream)
    (hcells : fillCells s = .found cells) :
    execFrameFill s =
      .next ({ s with
        mem := placeBits s.mem cells (placementBits stream s.spec.remBits.toNat)
        fillPos := (cells.map Cursor.fillPos).getLastD s.fillPos
        maskCur := 0
        formatBits := 0
        frameStage := .filled } : State).complete := by
  rw [execFrameFill, if_neg (not_none_or_invalid hstage hvalid), if_neg (not_not.2 hver), hread,
    withRead_some, hcells]
  rfl

/-- Settles O30: the search takes the first free cells of the traversal, which stand at different addresses,
and each keeps its bit. -/
theorem frameFillPlacesStream : Obligations.FrameFillPlacesStream := by
  unfold Obligations.FrameFillPlacesStream
  intro stream s hstage hvalid hver h1 h40 hwf hlen hstream hwritten
  dsimp only
  intro hn
  have hodd : frameWidth s % 2 = 1 := symbolWidth_odd _
  have hw : 9 ≤ frameWidth s := Nat.le_trans (by decide) (symbolWidth_ge h1)
  have h177 : frameWidth s ≤ 177 := by unfold frameWidth symbolWidth; omega
  have hcells : fillCells s = .found _ := firstFree_of_enough (fun x hx => by
    obtain ⟨hr, hc, -⟩ := cell_of_zigzag hodd hw hx
    exact hwritten x.r hr x.c hc) hn
  have hnodup := (nodup_cellAddr_zigzag hodd hw h177).sublist
    (((List.take_sublist (8 * s.spec.totalCw.toNat + s.spec.remBits.toNat) _).trans
      (List.filter_sublist (p := isFree s.mem))).map _)
  refine ⟨_, execFrameFill_of_found hstage hvalid hver (readRange_eq_some_iff.2 ⟨hlen, hstream⟩) hcells,
    completedFrom_complete _, fun i hi c hc => ?_, fun a ha => ?_,
    fun c hc hpos => getLastD_map_take _ hc hpos, rfl, hvalid, rfl, rfl, rfl, regsKept_frameFill s _ _,
    ⟨rfl, rfl, rfl, rfl⟩⟩
  · rw [← List.getElem?_take_of_lt hi] at hc
    exact read_placeBits hwf hnodup hc (getElem?_placementBits (hlen ▸ hi))
  · refine read_placeBits_ne _ _ hwf fun c hc heq => ha ?_
    obtain ⟨i, hi⟩ := List.mem_iff_getElem?.1 hc
    have hlt : i < 8 * s.spec.totalCw.toNat + s.spec.remBits.toNat := by
      by_contra hge
      rw [List.getElem?_take_eq_none (Nat.le_of_not_lt hge)] at hi
      cases hi
    exact ⟨i, hlt, c, by rwa [List.getElem?_take_of_lt hlt] at hi, heq.symm⟩

end Sys2Proof.Machine
end

section
/-! PROOFS. The mask predicates and the cells of the format word (46_mask.md): no cell belongs to two bits,
so the write of one bit leaves the cells of every other. -/

namespace Sys2Proof.Machine

open Sys2Proof

/-! ### The predicates (R121) -/

/-- The eight formulas. -/
theorem maskPred_iff (r c : Nat) :
    (maskPred 0 r c = true ↔ (r + c) % 2 = 0) ∧
    (maskPred 1 r c = true ↔ r % 2 = 0) ∧
    (maskPred 2 r c = true ↔ c % 3 = 0) ∧
    (maskPred 3 r c = true ↔ (r + c) % 3 = 0) ∧
    (maskPred 4 r c = true ↔ (r / 2 + c / 3) % 2 = 0) ∧
    (maskPred 5 r c = true ↔ (r * c) % 2 + (r * c) % 3 = 0) ∧
    (maskPred 6 r c = true ↔ ((r * c) % 2 + (r * c) % 3) % 2 = 0) ∧
    (maskPred 7 r c = true ↔ ((r + c) % 2 + (r * c) % 3) % 2 = 0) :=
  ⟨beq_iff_eq, beq_iff_eq, beq_iff_eq, beq_iff_eq, beq_iff_eq, beq_iff_eq, beq_iff_eq, beq_iff_eq⟩

/-! ### The cells of a bit (R123) -/

/-- The second copy runs left from the right edge of row 8, then down to the bottom edge of column 8. -/
theorem map_formatCell2 {w : Nat} (hw : 21 ≤ w) :
    (List.range 15).map (formatCell2 w) =
      [(8, w - 1), (8, w - 2), (8, w - 3), (8, w - 4), (8, w - 5), (8, w - 6), (8, w - 7), (8, w - 8),
       (w - 7, 8), (w - 6, 8), (w - 5, 8), (w - 4, 8), (w - 3, 8), (w - 2, 8), (w - 1, 8)] := by
  obtain ⟨k, rfl⟩ := Nat.exists_eq_add_of_le' hw
  rfl

/-- The address is that of one of the two cells of bit i (R123). -/
def isBitCell (w i a : Nat) : Prop :=
  a = cellAddr (formatCell1 i).1 (formatCell1 i).2 ∨
    a = cellAddr (formatCell2 w i).1 (formatCell2 w i).2

theorem isFormatCell_iff {w a : Nat} : isFormatCell w a ↔ ∃ i < 15, isBitCell w i a := Iff.rfl

/-- The placeholders of step 4 of R111, by their coordinates. -/
def isPlaceholder (w r c : Nat) : Prop :=
  (r = 8 ∧ ((c ≤ 8 ∧ c ≠ 6) ∨ w - 8 ≤ c)) ∨ (c = 8 ∧ ((r ≤ 8 ∧ r ≠ 6) ∨ w - 7 ≤ r))

/-- The bit whose cell a placeholder is: the table of R123 read from the cell to the bit. -/
def placeholderBit (w r c : Nat) : Nat :=
  if r = 8 then if c ≤ 5 then 14 - c else if c ≤ 8 then 15 - c else w - 1 - c
  else if r ≤ 5 then r else if r ≤ 7 then r - 1 else r + 15 - w

theorem formatCell2_of_le {w i : Nat} (h : i ≤ 7) : formatCell2 w i = (8, w - 1 - i) := by
  unfold formatCell2
  split_ifs <;> congr 1 <;> omega

theorem formatCell2_of_ge {w i : Nat} (hw : 21 ≤ w) (h : 8 ≤ i) : formatCell2 w i = (w - 15 + i, 8) := by
  unfold formatCell2
  split_ifs <;> congr 1 <;> omega

section
variable {w i : Nat} (hw : 21 ≤ w) (hi : i < 15)
include hw hi

theorem isPlaceholder_formatCell1 : isPlaceholder w (formatCell1 i).1 (formatCell1 i).2 := by
  unfold formatCell1
  split_ifs <;> dsimp only [isPlaceholder] <;> omega

theorem isPlaceholder_formatCell2 : isPlaceholder w (formatCell2 w i).1 (formatCell2 w i).2 := by
  rcases Nat.lt_or_ge i 8 with h | h
  · rw [formatCell2_of_le (by omega)]
    exact .inl ⟨rfl, .inr (by dsimp only; omega)⟩
  · rw [formatCell2_of_ge hw h]
    exact .inr ⟨rfl, .inr (by dsimp only; omega)⟩

theorem placeholderBit_formatCell1 : placeholderBit w (formatCell1 i).1 (formatCell1 i).2 = i := by
  unfold formatCell1
  split_ifs <;> dsimp only [placeholderBit] <;> split_ifs <;> omega

theorem placeholderBit_formatCell2 : placeholderBit w (formatCell2 w i).1 (formatCell2 w i).2 = i := by
  rcases Nat.lt_or_ge i 8 with h | h
  · rw [formatCell2_of_le (by omega), placeholderBit, if_pos rfl]
    dsimp only
    split_ifs <;> omega
  · rw [formatCell2_of_ge hw h, placeholderBit]
    dsimp only
    split_ifs <;> omega

/-- A cell of bit i is a placeholder inside W, and its coordinates give back the bit. -/
theorem isBitCell.exists_placeholder {a : Nat} (h : isBitCell w i a) :
    ∃ r < w, ∃ c < w, a = cellAddr r c ∧ isPlaceholder w r c ∧ placeholderBit w r c = i := by
  obtain ⟨hr1, hc1, hr2, hc2⟩ := formatCells_lt hw hi
  rcases h with h | h
  · exact ⟨_, hr1, _, hc1, h, isPlaceholder_formatCell1 hw hi, placeholderBit_formatCell1 hw hi⟩
  · exact ⟨_, hr2, _, hc2, h, isPlaceholder_formatCell2 hw hi, placeholderBit_formatCell2 hw hi⟩

end

/-- The first copy covers the placeholders of the upper left corner. -/
theorem exists_formatCell1_eq : ∀ x ≤ 8, x ≠ 6 →
    (∃ i < 15, formatCell1 i = (8, x)) ∧ ∃ i < 15, formatCell1 i = (x, 8) := by
  decide

section
variable {w : Nat} (hw : 21 ≤ w)
include hw

/-- Each placeholder inside W is a cell of its bit. -/
theorem isPlaceholder.exists_bit {r c : Nat} (hr : r < w) (hc : c < w) (h : isPlaceholder w r c) :
    ∃ i < 15, formatCell1 i = (r, c) ∨ formatCell2 w i = (r, c) := by
  rcases h with ⟨rfl, ⟨h8, h6⟩ | hright⟩ | ⟨rfl, ⟨h8, h6⟩ | hbottom⟩
  · obtain ⟨i, hi, h⟩ := (exists_formatCell1_eq c h8 h6).1
    exact ⟨i, hi, .inl h⟩
  · refine ⟨w - 1 - c, by omega, .inr ?_⟩
    rw [formatCell2_of_le (by omega), show w - 1 - (w - 1 - c) = c by omega]
  · obtain ⟨i, hi, h⟩ := (exists_formatCell1_eq r h8 h6).2
    exact ⟨i, hi, .inl h⟩
  · refine ⟨r + 15 - w, by omega, .inr ?_⟩
    rw [formatCell2_of_ge hw (by omega), show w - 15 + (r + 15 - w) = r by omega]

variable (h177 : w ≤ 177)
include h177

/-- No cell belongs to two bits. -/
theorem isBitCell.unique {i j a : Nat} (hi : i < 15) (hj : j < 15) (h : isBitCell w i a)
    (h' : isBitCell w j a) : i = j := by
  obtain ⟨r, -, c, hc, rfl, -, hbit⟩ := h.exists_placeholder hw hi
  obtain ⟨r', -, c', hc', haddr, -, hbit'⟩ := h'.exists_placeholder hw hj
  obtain ⟨rfl, rfl⟩ := cellAddr_inj (by omega) (by omega) haddr
  exact hbit.symm.trans hbit'

/-- The 30 cells of R123 are the placeholders. -/
theorem isFormatCell_cellAddr_iff {r c : Nat} (hr : r < w) (hc : c < w) :
    isFormatCell w (cellAddr r c) ↔ isPlaceholder w r c := by
  rw [isFormatCell_iff]
  constructor
  · rintro ⟨i, hi, h⟩
    obtain ⟨r', -, c', hc', haddr, hplace, -⟩ := h.exists_placeholder hw hi
    obtain ⟨rfl, rfl⟩ := cellAddr_inj (by omega) (by omega) haddr
    exact hplace
  · intro h
    obtain ⟨i, hi, h | h⟩ := h.exists_bit hw hr hc
    · exact ⟨i, hi, .inl (by rw [h])⟩
    · exact ⟨i, hi, .inr (by rw [h])⟩

end

/-! ### The format word written -/

/-- A byte that is no format cell stays (R123). -/
theorem read_writeFormat_of_not_formatCell {m : Memory} {w a : Nat} (f : BitVec 15) (hm : m.wf)
    (ha : ¬ isFormatCell w a) : (writeFormat m w f).read a = m.read a :=
  read_writeFormat_ne w f hm fun i hi =>
    ⟨fun h => ha ⟨i, hi, .inl h.symm⟩, fun h => ha ⟨i, hi, .inr h.symm⟩⟩

theorem read_writeFormatBit_same {m : Memory} {w i a : Nat} (f : BitVec 15) (hm : m.wf)
    (h : isBitCell w i a) :
    (writeFormatBit w f m i).read a = some (cellByte (f.getLsbD i) true) := by
  unfold writeFormatBit
  rw [Memory.read_write _ _ _ _ (Memory.wf_write _ _ hm), Memory.read_write _ _ _ _ hm]
  rcases h with rfl | rfl <;> simp

theorem read_writeFormatBit_ne {m : Memory} {w i a : Nat} (f : BitVec 15) (hm : m.wf)
    (h : ¬ isBitCell w i a) : (writeFormatBit w f m i).read a = m.read a := by
  obtain ⟨h1, h2⟩ := not_or.1 h
  unfold writeFormatBit
  rw [Memory.read_write_ne _ _ (Memory.wf_write _ _ hm) (Ne.symm h2),
    Memory.read_write_ne _ _ hm (Ne.symm h1)]

/-- Once bit i is written at its cell, or while it is still to come, the loop leaves it there. -/
theorem read_foldl_writeFormatBit {w i a : Nat} (f : BitVec 15) (hw : 21 ≤ w) (h177 : w ≤ 177) (hi : i < 15)
    (ha : isBitCell w i a) {l : List Nat} {m : Memory} (hm : m.wf) (hl : ∀ j ∈ l, j < 15)
    (h : i ∈ l ∨ m.read a = some (cellByte (f.getLsbD i) true)) :
    (l.foldl (writeFormatBit w f) m).read a = some (cellByte (f.getLsbD i) true) := by
  induction l generalizing m with
  | nil => exact h.resolve_left List.not_mem_nil
  | cons j l ih =>
    refine ih (wf_writeFormatBit w f j hm) (fun k hk => hl k (List.mem_cons_of_mem j hk)) ?_
    by_cases hij : i = j
    · exact .inr (hij ▸ read_writeFormatBit_same f hm ha)
    · rw [read_writeFormatBit_ne f hm fun hj => hij (ha.unique hw h177 hi (hl j List.mem_cons_self) hj)]
      exact h.imp_left fun hmem => (List.mem_cons.1 hmem).resolve_left hij

/-- Bit i stands, reserved, at each of its two cells (R123). -/
theorem read_writeFormat_of_bitCell {m : Memory} {w i a : Nat} (f : BitVec 15) (hm : m.wf) (hw : 21 ≤ w)
    (h177 : w ≤ 177) (hi : i < 15) (ha : isBitCell w i a) :
    (writeFormat m w f).read a = some (cellByte (f.getLsbD i) true) :=
  read_foldl_writeFormatBit f hw h177 hi ha hm (fun _ => List.mem_range.1) (.inl (List.mem_range.2 hi))

theorem symbolWidth_le {v : Nat} (h40 : v ≤ 40) : symbolWidth v ≤ 177 := by
  unfold symbolWidth
  omega

/-- Settles O60: no cell belongs to two bits of the format word, so each cell keeps its own. -/
theorem maskPredicatesAndFormatCells : Obligations.MaskPredicatesAndFormatCells := by
  unfold Obligations.MaskPredicatesAndFormatCells
  refine ⟨maskPred_iff, rfl, fun v h1 h40 => ?_⟩
  have hw := symbolWidth_ge h1
  have h177 := symbolWidth_le h40
  exact ⟨map_formatCell2 hw, fun r c hr hc => isFormatCell_cellAddr_iff hw h177 hr hc, fun m f hm =>
    ⟨fun i hi => ⟨read_writeFormat_of_bitCell f hm hw h177 hi (.inl rfl),
      read_writeFormat_of_bitCell f hm hw h177 hi (.inr rfl)⟩,
      fun a => read_writeFormat_of_not_formatCell f hm⟩⟩

end Sys2Proof.Machine
end

section
/-! PROOFS. MASK (46_mask.md section 3): every cell as the command leaves it, and that the inversion of an
earlier mask is undone. -/

namespace Sys2Proof.Machine

open Sys2Proof

/-! ### The inversion of the data cells -/

/-- Two inversions of a cell are one, by the exclusive or (R122 (a)). -/
theorem flipData_flipData (x y : Bool) (b : Byte) :
    flipData y (flipData x b) = flipData (x ^^ y) b := by
  unfold flipData
  by_cases hb : cellReserved b = true <;> simp [hb]

/-- The mask put on by the first of two MASKs is the one that the second takes off. -/
theorem maskFlip_trans (stage : FrameStage) (old m1 m2 r c : Nat) :
    (maskFlip stage old m1 r c ^^ maskFlip .masked m1 m2 r c) = maskFlip stage old m2 r c := by
  have hmasked : maskFlip .masked m1 m2 r c = (maskPred m1 r c ^^ maskPred m2 r c) := rfl
  rw [hmasked]
  unfold maskFlip
  rw [Bool.xor_assoc, ← Bool.xor_assoc (maskPred m1 r c), Bool.xor_self, Bool.false_xor]

/-- The inversion of a cell inside W, by its coordinates (R124). -/
theorem read_flipSymbol_cellAddr (m : Memory) {w r c : Nat} (flip : Nat → Nat → Bool) (h177 : w ≤ 177)
    (hr : r < w) (hc : c < w) :
    (flipSymbol m w flip).read (cellAddr r c) = (m.read (cellAddr r c)).map (flipData (flip r c)) := by
  have h256 : c < 256 := by omega
  have hin : inSymbol w (cellAddr r c) = true := by simp [inSymbol_cellAddr w r c h256, hr, hc]
  rw [read_flipSymbol, if_pos hin, cellAddr_row r c h256, cellAddr_col r c h256]

theorem read_flipSymbol_outside (m : Memory) {w a : Nat} (flip : Nat → Nat → Bool)
    (h : ¬ inSymbol w a = true) : (flipSymbol m w flip).read a = m.read a := by
  rw [read_flipSymbol, if_neg h]

/-- The format cells lie inside the symbol (R123). -/
theorem inSymbol_of_formatCell {w a : Nat} (hw : 21 ≤ w) (h177 : w ≤ 177) (h : isFormatCell w a) :
    inSymbol w a = true := by
  obtain ⟨i, hi, hbit⟩ := h
  obtain ⟨r, hr, c, hc, rfl, -⟩ := isBitCell.exists_placeholder hw hi hbit
  simp [inSymbol_cellAddr w r c (by omega), hr, hc]

/-! ### The two passes of MASK on the storage -/

/-- The data cells inverted, then the format word written (R124). -/
def maskPass (w : Nat) (flip : Nat → Nat → Bool) (f : BitVec 15) (m : Memory) : Memory :=
  writeFormat (flipSymbol m w flip) w f

section
variable {m : Memory} {w : Nat} (flip : Nat → Nat → Bool) (f : BitVec 15) (hm : m.wf)
include hm

theorem wf_maskPass : (maskPass w flip f m).wf := wf_writeFormat w f (wf_flipSymbol w flip hm)

/-- Off the format cells the storage is what the inversion leaves. -/
theorem read_maskPass_of_not_formatCell {a : Nat} (ha : ¬ isFormatCell w a) :
    (maskPass w flip f m).read a = (flipSymbol m w flip).read a :=
  read_writeFormat_of_not_formatCell f (wf_flipSymbol w flip hm) ha

variable (hw : 21 ≤ w) (h177 : w ≤ 177)
include hw h177

theorem read_maskPass_of_bitCell {i a : Nat} (hi : i < 15) (ha : isBitCell w i a) :
    (maskPass w flip f m).read a = some (cellByte (f.getLsbD i) true) :=
  read_writeFormat_of_bitCell f (wf_flipSymbol w flip hm) hw h177 hi ha

theorem read_maskPass_outside {a : Nat} (h : ¬ inSymbol w a = true) :
    (maskPass w flip f m).read a = m.read a := by
  rw [read_maskPass_of_not_formatCell flip f hm fun ha => h (inSymbol_of_formatCell hw h177 ha),
    read_flipSymbol_outside m flip h]

/-- A frame that MASK has passed over can be masked again. -/
theorem isSome_read_maskPass {a : Nat} (ha : (m.read a).isSome) :
    ((maskPass w flip f m).read a).isSome := by
  by_cases hf : isFormatCell w a
  · obtain ⟨i, hi, hbit⟩ := hf
    rw [read_maskPass_of_bitCell flip f hm hw h177 hi hbit]
    rfl
  · rw [read_maskPass_of_not_formatCell flip f hm hf, read_flipSymbol]
    split <;> simp [ha]

/-- A pass over a pass is one pass: the later format word covers the earlier, and the inversions add up. -/
theorem maskPass_maskPass (flip' : Nat → Nat → Bool) (f' : BitVec 15) :
    maskPass w flip' f' (maskPass w flip f m) =
      maskPass w (fun r c => flip r c ^^ flip' r c) f' m := by
  have hm' := wf_maskPass (w := w) flip f hm
  refine Memory.eq_of_read_eq (wf_maskPass _ _ hm') (wf_maskPass _ _ hm) fun a => ?_
  by_cases ha : isFormatCell w a
  · obtain ⟨i, hi, hbit⟩ := ha
    rw [read_maskPass_of_bitCell _ _ hm' hw h177 hi hbit, read_maskPass_of_bitCell _ _ hm hw h177 hi hbit]
  · rw [read_maskPass_of_not_formatCell _ _ hm' ha, read_maskPass_of_not_formatCell _ _ hm ha,
      read_flipSymbol, read_maskPass_of_not_formatCell _ _ hm ha, read_flipSymbol, read_flipSymbol]
    split
    · simp [Function.comp_def, flipData_flipData]
    · rfl

end

/-! ### MASK -/

/-- What MASK m leaves of the state over a storage (R124). -/
def State.masked (s : State) (m : BitVec 3) (mem : Memory) : State :=
  ({ s with
    mem := mem
    formatBits := formatWord s.spec.level.toNat m.toNat
    maskCur := m
    frameStage := .masked } : State).complete

/-- The storage after MASK m (R124). -/
def maskedMem (m : BitVec 3) (s : State) : Memory :=
  maskPass (frameWidth s) (maskFlip s.frameStage s.maskCur.toNat m.toNat)
    (formatWord s.spec.level.toNat m.toNat) s.mem

theorem mem_masked (s : State) (m : BitVec 3) (mem : Memory) : (s.masked m mem).mem = mem := rfl

theorem frameWidth_masked (s : State) (m : BitVec 3) (mem : Memory) :
    frameWidth (s.masked m mem) = frameWidth s := rfl

/-- A second MASK finds the stage MASKED and the mask of the first (R124). -/
theorem maskedMem_masked (s : State) (m1 m2 : BitVec 3) (mem : Memory) :
    maskedMem m2 (s.masked m1 mem) =
      maskPass (frameWidth s) (maskFlip .masked m1.toNat m2.toNat)
        (formatWord s.spec.level.toNat m2.toNat) mem := rfl

/-- Of two MASKs the second writes all that the first wrote beside the storage (R124). -/
theorem masked_masked (s : State) (m1 m2 : BitVec 3) (mem mem' : Memory) :
    (s.masked m1 mem).masked m2 mem' = s.masked m2 mem' := rfl

section
variable {s : State} (hstage : s.frameStage = .filled ∨ s.frameStage = .masked)
include hstage

theorem isFilled_of_stage : s.frameStage.isFilled = true := by
  rcases hstage with h | h <;> rw [h] <;> rfl

theorem execMask_of_written (m : BitVec 3)
    (hwritten : ∀ r < frameWidth s, ∀ c < frameWidth s, (s.mem.read (cellAddr r c)).isSome) :
    execMask m s = .next (s.masked m (maskedMem m s)) := by
  rw [execMask, isFilled_of_stage hstage, symbolWritten_iff.2 hwritten]
  rfl

theorem execMask_of_unwritten (m : BitVec 3)
    (h : ∃ r < frameWidth s, ∃ c < frameWidth s, s.mem.read (cellAddr r c) = none) :
    execMask m s = .fault .unwrittenRead := by
  obtain ⟨r, hr, c, hc, hnone⟩ := h
  have hwritten : symbolWritten s.mem (frameWidth s) = false := by
    rw [Bool.eq_false_iff, Ne, symbolWritten_iff]
    exact fun hall => by simpa [hnone] using hall r hr c hc
  rw [execMask, isFilled_of_stage hstage, hwritten]
  rfl

end

/-- The frame of MASK (R124). -/
theorem regsKept_mask (s : State) (m : BitVec 3) (mem : Memory) :
    regsKept [.status, .errcode, .maskCur, .formatBits] s (s.masked m mem) := by
  intro r hr
  cases r with
  | status | errcode | maskCur | formatBits => simp at hr
  | _ => rfl

/-- The word of a command of format M, its fields side by side (R57). -/
theorem append_formatM (op : BitVec 8) (m : BitVec 3) : op ++ 0#21 ++ m = op ++ (0#21 ++ m) := by
  simp only [BitVec.append_assoc, BitVec.cast_eq]

/-- A data cell is inverted for the mask it has and for the new one; a reserved one stays (R124). -/
theorem flipData_maskFlip (stage : FrameStage) (old new r c : Nat) (b : Byte) :
    flipData (maskFlip stage old new r c) b =
      if cellReserved b then b
      else cellByte (cellDark b ^^ (decide (stage = .masked) && maskPred old r c) ^^ maskPred new r c)
        false := by
  rw [flipData, maskFlip, ← Bool.xor_assoc]
  rfl

/-- Settles O32: the cell's address says which pass of MASK it is for, the format word's or the inversion. -/
theorem maskInvertsDataAndWritesFormat : Obligations.MaskInvertsDataAndWritesFormat := by
  unfold Obligations.MaskInvertsDataAndWritesFormat
  refine fun m s => ⟨?_, fun hstage hm h1 h40 hwritten => ?_, fun hstage => ?_,
    fun hstage => execMask_of_unwritten hstage m⟩
  · rw [append_formatM]
    exact encodedAs_encode (.mask m)
  · have hw : 21 ≤ frameWidth s := symbolWidth_ge h1
    have h177 : frameWidth s ≤ 177 := symbolWidth_le h40
    refine ⟨_, execMask_of_written hstage m hwritten, completedFrom_complete _,
      fun r hr c hc b hf hb => ?_, fun i hi => ?_, fun a ha => ?_, rfl, rfl, rfl, rfl, rfl,
      regsKept_mask s m _, ⟨rfl, rfl, rfl, rfl⟩⟩ <;> rw [mem_masked, maskedMem]
    · rw [read_maskPass_of_not_formatCell _ _ hm hf, read_flipSymbol_cellAddr s.mem _ h177 hr hc, hb,
        Option.map_some, flipData_maskFlip]
    · exact ⟨read_maskPass_of_bitCell _ _ hm hw h177 hi (.inl rfl),
        read_maskPass_of_bitCell _ _ hm hw h177 hi (.inr rfl)⟩
    · exact read_maskPass_outside _ _ hm hw h177 ha
  · refine execMask_notReady m ?_
    rcases hstage with h | h <;> rw [h] <;> rfl

/-- Settles O33: the passes of both commands over the storage are one pass, whose inversions are those of
the second MASK alone. -/
theorem maskReplacesEarlierMask : Obligations.MaskReplacesEarlierMask := by
  unfold Obligations.MaskReplacesEarlierMask
  intro m1 m2 s hstage hm h1 h40 hwritten
  have hw : 21 ≤ frameWidth s := symbolWidth_ge h1
  have h177 : frameWidth s ≤ 177 := symbolWidth_le h40
  have hmem : maskedMem m2 (s.masked m1 (maskedMem m1 s)) = maskedMem m2 s := by
    rw [maskedMem_masked, maskedMem, maskPass_maskPass _ _ hm hw h177, maskedMem]
    simp only [maskFlip_trans]
  refine ⟨s.masked m1 (maskedMem m1 s), s.masked m2 (maskedMem m2 s),
    execMask_of_written hstage m1 hwritten, ?_, execMask_of_written hstage m2 hwritten⟩
  refine (execMask_of_written (.inr rfl) m2 ?_).trans (by rw [hmem, masked_masked])
  rw [frameWidth_masked, mem_masked, maskedMem]
  exact fun r hr c hc => isSome_read_maskPass _ _ hm hw h177 (hwritten r hr c hc)

end Sys2Proof.Machine
end

section
/-! PROOFS. How a command ends: the codes it leaves, what an error end writes, where it stops, what its
operands decide, and which steps clear ERR (60_exceptions.md section 1). -/

namespace Sys2Proof.Machine

open Sys2Proof

/-! ### The codes, and the end in error -/

/-- Settles O36: an error end has a listed code, a success end the code 0. -/
theorem onlyListedCodesAreProduced : Obligations.OnlyListedCodesAreProduced := by
  unfold Obligations.OnlyListedCodesAreProduced
  intro i s t h
  cases exec_cases h with
  | fails hc => exact .inr ⟨_, hc, rfl⟩
  | succeeds => exact .inl rfl

/-- A command that leaves a code other than 0 came to its error end (R126, R127). -/
theorem ExecCase.exists_fail_of_errcode {i : Instr} {s t : State} (h : ExecCase s i t)
    (ht : t.errcode ≠ 0#4) : ∃ c, t = s.fail c := by
  cases h with
  | fails => exact ⟨_, rfl⟩
  | succeeds => exact absurd rfl ht

/-- The same of the word in CMD, whether it is a command or not. -/
theorem engineStep_exists_fail_of_errcode {s t : State} (h : engineStep s = .next t)
    (ht : t.errcode ≠ 0#4) : ∃ c, t = s.fail c := by
  cases hd : decode s.cmd with
  | ok i =>
    rw [engineStep_of_decode hd] at h
    exact (exec_cases h).exists_fail_of_errcode ht
  | error e =>
    rw [engineStep_of_error hd] at h
    cases h
    exact ⟨_, rfl⟩

/-- Settles O34: the one end with a code that is not 0 is the error completion. -/
theorem errorCompletionChangesNothingElse : Obligations.ErrorCompletionChangesNothingElse := by
  unfold Obligations.ErrorCompletionChangesNothingElse
  intro i s t h ht
  have hfail : ∃ c, t = s.fail c := by
    rcases h with h | h
    · exact (exec_cases h).exists_fail_of_errcode ht
    · exact engineStep_exists_fail_of_errcode h ht
  obtain ⟨c, rfl⟩ := hfail
  rfl

/-! ### What the operands decide, and where a command stops -/

/-- The mode operands that name a mode are the legal ones (R59). -/
theorem modeOfOperand_isSome {mode : BitVec 3} {count : BitVec 16} :
    (modeOfOperand mode).isSome = (Instr.selAdd mode count).wellFormed := by
  rw [Instr.wellFormed]
  revert mode
  decide

/-- GEN_POLY's check of its operand is the check for a legal one (R102). -/
theorem wellFormed_genPoly {n : Byte} : (Instr.genPoly n).wellFormed = true ↔ n ≠ 0 := by
  rw [Instr.wellFormed, decide_eq_true_eq, Nat.one_le_iff_ne_zero, ne_eq, ne_eq, BitVec.toNat_eq]
  rfl

/-- An illegal operand decides the command's end alone (R128). -/
theorem exec_of_illegalOperand {i : Instr} (hi : i.wellFormed = false) (s : State) :
    exec i s = .next (s.fail .invalidArgument) := by
  cases i with
  | selAdd mode count =>
    rw [← modeOfOperand_isSome, Option.isSome_eq_false_iff, Option.isNone_iff_eq_none] at hi
    rw [exec, execSelAdd, hi]
    rfl
  | selRun version level =>
    rw [exec, execSelRun, show legalRunVersion version = false from hi]
    rfl
  | specQuery version level =>
    rw [exec, execSpecQuery, show legalQueryVersion version = false from hi]
    rfl
  | genPoly n =>
    have hn : n = 0 := by
      by_contra hn
      exact absurd (wellFormed_genPoly.2 hn) (by simp [hi])
    exact if_pos hn
  | rsEncode k n =>
    rw [exec, execRsEncode, show legalBlock k n = false from hi]
    rfl
  | _ => cases hi

/-- What a command with legal operands may answer: success, an error other than InvalidArgument, or the
fault of a read of the storage if it makes one (R15). No refusal is among them. -/
inductive Proceeds (s : State) (i : Instr) : Result → Prop
  | succeeds {u : State} : Proceeds s i (succeed u)
  | fails {c : ErrCode} : c ≠ .invalidArgument → Proceeds s i (raiseError c s)
  | unwritten : readsStorage i = true → Proceeds s i (.fault .unwrittenRead)

section
variable {s : State} {i : Instr}

theorem Proceeds.of_check {ok : Bool} {x y : Result} (hok : ok = true) (hy : Proceeds s i y) :
    Proceeds s i (if !ok then x else y) := by
  rwa [if_neg (by simp [hok])]

theorem Proceeds.unless {p : Prop} [Decidable p] {c : ErrCode} {y : Result}
    (hc : c ≠ .invalidArgument) (hy : Proceeds s i y) :
    Proceeds s i (if p then raiseError c s else y) := by
  split
  · exact .fails hc
  · exact hy

theorem Proceeds.withRead {α : Type} {o : Option α} {k : α → Result}
    (hi : readsStorage i = true) (hk : ∀ x, Proceeds s i (k x)) : Proceeds s i (withRead o k) := by
  cases o with
  | none => exact .unwritten hi
  | some x => exact hk x

end

theorem proceeds_execSelAdd {mode : BitVec 3} {count : BitVec 16}
    (hi : (Instr.selAdd mode count).wellFormed = true) (s : State) :
    Proceeds s (.selAdd mode count) (execSelAdd mode count s) := by
  rw [← modeOfOperand_isSome] at hi
  obtain ⟨m, hm⟩ := Option.isSome_iff_exists.1 hi
  simp only [execSelAdd, hm]
  exact .unless (by decide) (.unless (by decide) .succeeds)

theorem proceeds_execSelRun {version : BitVec 6} {level : BitVec 2}
    (hi : (Instr.selRun version level).wellFormed = true) (s : State) :
    Proceeds s (.selRun version level) (execSelRun version level s) := by
  refine .of_check hi (.unless (by decide) ?_)
  split
  · exact .fails (by decide)
  · exact .succeeds

theorem proceeds_execFillNext (s : State) : Proceeds s .fillNext (execFillNext s) := by
  refine .unless (by decide) ?_
  dsimp only
  split
  · exact .unwritten rfl
  · exact .fails (by decide)
  · exact .succeeds

theorem proceeds_execFrameFill (s : State) : Proceeds s .frameFill (execFrameFill s) := by
  refine .unless (by decide) (.unless (by decide) (.withRead rfl fun stream => ?_))
  split
  · exact .unwritten rfl
  · exact .fails (by decide)
  · exact .succeeds

theorem proceeds_execMask (m : BitVec 3) (s : State) : Proceeds s (.mask m) (execMask m s) := by
  refine .unless (by decide) ?_
  split
  · exact .unwritten rfl
  · exact .succeeds

/-- With legal operands, every command answers one of these. -/
theorem proceeds_exec {i : Instr} (hi : i.wellFormed = true) (s : State) :
    Proceeds s i (exec i s) := by
  cases i with
  | nop | softReset | selClear | cwReset | fillReset => exact .succeeds
  | selAdd => exact proceeds_execSelAdd hi s
  | selRun => exact proceeds_execSelRun hi s
  | specQuery => exact .of_check hi .succeeds
  | genPoly =>
    rw [exec, execGenPoly, if_neg (wellFormed_genPoly.1 hi)]
    exact .succeeds
  | rsEncode => exact .of_check hi (.withRead rfl fun _ => .succeeds)
  | assemble => exact .unless (by decide) (.withRead rfl fun _ => .withRead rfl fun _ => .succeeds)
  | cwNext => exact .unless (by decide) (.unless (by decide) (.withRead rfl fun _ => .succeeds))
  | frameInit => exact .unless (by decide) .succeeds
  | fillNext => exact proceeds_execFillNext s
  | frameFill => exact proceeds_execFrameFill s
  | mask m => exact proceeds_execMask m s

/-- Settles O38: the operand check is a command's first, and no answer with legal operands has the code of
InvalidArgument. -/
theorem invalidArgumentComesFirst : Obligations.InvalidArgumentComesFirst := by
  unfold Obligations.InvalidArgumentComesFirst
  refine fun i s => ⟨fun hi => exec_of_illegalOperand hi s, fun hi t ht he => ?_⟩
  have hp := proceeds_exec hi s
  rw [ht] at hp
  cases hp with
  | succeeds => exact absurd (errCode_eq_zero.1 he.symm) (by decide)
  | fails hc => exact hc (errCode_injective he)

/-- Settles O37: an illegal operand ends in a next state, and of the answers with legal ones the one fault
is that of the command's reads. -/
theorem engineFaultsOnlyOnUnwrittenReads : Obligations.EngineFaultsOnlyOnUnwrittenReads := by
  unfold Obligations.EngineFaultsOnlyOnUnwrittenReads
  intro i s
  cases hi : i.wellFormed with
  | false => simp [exec_of_illegalOperand hi s]
  | true =>
    have hp := proceeds_exec hi s
    refine ⟨fun f hf => ?_, fun r hr => ?_⟩
    · rw [hf] at hp
      cases hp with
      | unwritten hreads => exact ⟨rfl, hreads⟩
    · rw [hr] at hp
      cases hp

/-! ### ERR -/

/-- A Host access lowers ERR only by the write to STATUS (R25). -/
theorem HostCase.err_falls {s t : State} {a : HostAction} (h : HostCase s a t) (hs : s.err = true)
    (ht : t.err = false) : ∃ v, a = .sw 0x004#32 v ∧ v.getLsbD 1 = true := by
  cases h with
  | @cleared v =>
    rw [writeStatus_err, hs] at ht
    exact ⟨v, rfl, by simpa using ht⟩
  | _ => exact absurd (hs.symm.trans ht) (by decide)

/-- Settles O41: an end in error sets ERR and a success other than SOFT_RESET's keeps it, so what is left
is the Host's write. -/
theorem errIsSticky : Obligations.ErrIsSticky := by
  unfold Obligations.ErrIsSticky
  intro s t h hs ht
  cases step_cases h with
  | @command i _ hb hd he =>
    cases he with
    | fails => cases ht
    | succeeds hu =>
      have hi : i = .softReset := by
        by_contra hi
        exact absurd (hs.symm.trans ((hu.err_eq hi).symm.trans ht)) (by decide)
      exact .inl ⟨hb, hi ▸ hd⟩
  | illegal => cases ht
  | polled => exact absurd (hs.symm.trans ht) (by decide)
  | @host a rest _ hb hp hc =>
    obtain ⟨v, rfl, hv⟩ := hc.err_falls hs ht
    exact .inr ⟨hb, v, rest, hp, hv⟩

end Sys2Proof.Machine
end

section
/-! PROOFS. The state after reset, the Host's reads of the tables, and the Host's accesses while BUSY = 1. -/

namespace Sys2Proof.Machine

open Sys2Proof

/-! ### The tables over the port -/

theorem hostLoadByte_gfExp {i : Nat} (h : i < 256) (s : State) :
    hostLoadByte (BitVec.ofNat 32 (gfExpBase + i)) s = .next (s.reply ((gfExp i).setWidth 32)) := by
  have hb : gfExpBase = 0x3200 := rfl
  have hr : regionOf (gfExpBase + i) = some (.gfExp i) := regionOf_eq_gfExp_iff.2 (by omega)
  rw [hostLoadByte, toNat_ofNat_of_le (by omega), hr]

theorem hostLoadByte_gfLog {i : Nat} (h : i < 256) (s : State) :
    hostLoadByte (BitVec.ofNat 32 (gfLogBase + i)) s = .next (s.reply ((gfLog i).setWidth 32)) := by
  have hb : gfLogBase = 0x3300 := rfl
  have hr : regionOf (gfLogBase + i) = some (.gfLog i) := regionOf_eq_gfLog_iff.2 (by omega)
  rw [hostLoadByte, toNat_ofNat_of_le (by omega), hr]

/-! ### The state after reset -/

/-- Settles O1: the registers and the storage start empty, and the tables are no state, so the port serves
them from the first access (R18). -/
theorem resetClearsEveryRegister : Obligations.ResetClearsEveryRegister := by
  unfold Obligations.ResetClearsEveryRegister
  exact ⟨read_reset, fun _ => rfl, Memory.read_nil, fun i hi =>
    ⟨hostLoadByte_gfExp hi State.reset, hostLoadByte_gfLog hi State.reset⟩⟩

theorem storageOk_reset : storageOk State.reset :=
  ⟨Memory.wf_nil, List.forall_mem_nil _, List.forall_mem_nil _⟩

theorem specOk_reset : specOk State.reset := ⟨fun _ => rfl, fun h => by cases h⟩

theorem segsOk_reset : segsOk State.reset := ⟨Nat.zero_le _, List.forall_mem_nil _⟩

theorem errcodeOk_reset : errcodeOk State.reset := List.mem_cons_self

/-- GEN_DEGREE 0 announces no generator (R35). -/
theorem generatorOk_reset : generatorOk State.reset := ⟨Nat.zero_le _, fun h => absurd rfl h⟩

theorem frameOk_reset : frameOk State.reset :=
  ⟨fun _ => ⟨rfl, rfl, rfl⟩, fun h => absurd rfl h, fun _ => ⟨rfl, rfl⟩⟩

theorem rangesOk_reset : rangesOk State.reset := ⟨Nat.zero_le _, Nat.zero_le _⟩

/-- Settles O57: each part of legal allows the registers 0 and the storage empty. -/
theorem resetIsLegal : Obligations.ResetIsLegal := by
  unfold Obligations.ResetIsLegal
  exact ⟨storageOk_reset, specOk_reset, segsOk_reset, errcodeOk_reset, generatorOk_reset, frameOk_reset,
    fillPosOk_of_zero rfl, rangesOk_reset⟩

/-! ### Host accesses while BUSY = 1 -/

/-- The reads of R139 by name: STATUS, ERRCODE, and the wait that reads STATUS. -/
theorem allowedWhileBusy_iff {a : HostAction} :
    allowedWhileBusy a = true ↔ a = .lw 0x004#32 ∨ a = .lw 0x008#32 ∨ a = .wait := by
  cases a with
  | lw addr => simp [allowedWhileBusy, Reg.offset, ← BitVec.toNat_inj]
  | lb addr | sw addr v | sb addr v | wait => simp [allowedWhileBusy]

theorem step_of_hazard {s : State} {a : HostAction} {rest : List HostAction} (hb : s.busy = true)
    (hp : s.port = a :: rest) (ha : allowedWhileBusy a = false) : step s = .fault .busyHazard := by
  rw [step_of_busy hb]
  simp [busyStep, hp, ha]

theorem step_of_busyRead {s : State} {a : HostAction} {rest : List HostAction} (hb : s.busy = true)
    (hp : s.port = a :: rest) (ha : allowedWhileBusy a = true) (hl : 0 < s.busyLeft) :
    step s = .next (busyRead a rest s) := by
  rw [step_of_busy hb]
  simp [busyStep, hp, ha, hl.ne']

/-- No register reads the port, the replies or the count of reads drawn (R41, R48). -/
theorem read_of_served (r : Reg) (s : State) (p : List HostAction) (q : List Word) (left : Nat) :
    r.read { s with port := p, replies := q, busyLeft := left } = r.read s := by
  cases r <;> rfl

theorem busyRead_reg (r : Reg) (rest : List HostAction) (s : State) :
    busyRead (.lw (BitVec.ofNat 32 r.offset)) rest s =
      { s with port := rest, replies := r.read s :: s.replies, busyLeft := s.busyLeft - 1 } := by
  have hr := offset_le r
  rw [busyRead, toNat_ofNat_of_le (by omega), readOffset_offset]
  rfl

/-- An allowed load before the completion: the reply is the register as it stands, and nothing but the
model's own fields changes (R48, R139). -/
theorem step_busyLoad {s : State} {r : Reg} {rest : List HostAction} (hb : s.busy = true)
    (hp : s.port = .lw (BitVec.ofNat 32 r.offset) :: rest)
    (ha : allowedWhileBusy (.lw (BitVec.ofNat 32 r.offset)) = true) (hl : 0 < s.busyLeft) :
    ∃ t, step s = .next t ∧ t.replies = r.read s :: s.replies ∧ regsKept [] s t ∧ t.mem = s.mem ∧
      t.port = rest := by
  have hstep := step_of_busyRead hb hp ha hl
  rw [busyRead_reg] at hstep
  exact ⟨_, hstep, rfl, fun r' _ => read_of_served r' s rest _ _, rfl, rfl⟩

/-- Settles O48: what allowedWhileBusy turns away is a hazard, and STATUS and ERRCODE are the two registers
it lets a load read. -/
theorem busyHostMayOnlyReadStatus : Obligations.BusyHostMayOnlyReadStatus := by
  unfold Obligations.BusyHostMayOnlyReadStatus
  intro s a rest hb hp
  refine ⟨fun hs he hw => ?_, fun ha hl => ?_, fun ha hl => ?_⟩
  · exact step_of_hazard hb hp (Bool.eq_false_iff.2 fun h =>
      (allowedWhileBusy_iff.1 h).elim hs (Or.elim · he hw))
  · subst ha
    exact step_busyLoad (r := .status) hb hp rfl hl
  · subst ha
    exact step_busyLoad (r := .errcode) hb hp rfl hl

end Sys2Proof.Machine
end

section
/-! PROOFS. The words of the decoding vectors. -/

namespace Sys2Proof

/-- Settles O46: eight of the words are the encoder's for their commands; of the two others, one has bit 3
set under format M and one an opcode that R62 does not list. -/
theorem sampleWordsDecode : Obligations.SampleWordsDecode := by
  unfold Obligations.SampleWordsDecode
  exact ⟨decode_encode .nop, decode_encode (.selAdd 1 11), decode_encode (.selRun 41 3),
    decode_encode (.specQuery 40 0), decode_encode (.genPoly 255), decode_encode (.rsEncode 254 1),
    decode_encode (.mask 7), decode_encode .frameFill, rfl, rfl⟩

end Sys2Proof
end
